-- ==== Sys2Proof/Word.lean ====
section
/-! DEFINITION. The widths and the word types of the block (00_scope.md R6, R9, R10). Bit 0 is the least significant bit. -/

namespace Sys2Proof

/-- `BYTE_WIDTH` (R6): the width of one input byte. -/
@[simp] abbrev Config.byteWidth : Nat := 8

/-- `CH_WIDTH` (R6): the width of one channel slot. -/
@[simp] abbrev Config.chWidth : Nat := 16

/-- `TS_WIDTH` (R6): the width of every timestamp. -/
@[simp] abbrev Config.tsWidth : Nat := 32

/-- `CH_BITS` (R6): the width of one packed raw channel. -/
@[simp] abbrev Config.chBits : Nat := 11

/-- One received byte, and one entry of `frame_buffer` (R6). -/
abbrev U8 := BitVec Config.byteWidth

/-- One channel slot and one response word (R6, R64). -/
abbrev U16 := BitVec Config.chWidth

/-- One timestamp, and the `ARG` field of a command word (R6, R61). -/
abbrev U32 := BitVec Config.tsWidth

/-- One packed raw channel value (R6). -/
abbrev Raw := BitVec Config.chBits

/-- One command word `CMD[47:0]` (R60). -/
abbrev CmdWord := BitVec 48

/-- The header `H = buf[0] ++ buf[1] ++ buf[2]` of a frame (R69). -/
abbrev Header := BitVec 24

end Sys2Proof
end

