-- ==== Sys2Proof/Config.lean ====
section
/-! DEFINITION. What the implementation fixes: the constants of 00_scope.md R6 (its widths stand in Word.lean), the open policy
of R8, and the values the spec leaves open at power-on (70_reset_and_hazards.md R150). -/

namespace Sys2Proof.Config

/-- `FRAME_SIZE_MAX` (R6): the capacity of `frame_buffer`, and the largest total frame size. -/
@[simp] abbrev frameSizeMax : Nat := 64

/-- `N_CHANNELS` (R6): the number of channel slots, and of packed fields in an RC payload. -/
@[simp] abbrev nChannels : Nat := 16

/-- `N_DECODED` (R6, R125): the number of channels a frame decodes. -/
@[simp] abbrev nDecoded : Nat := 8

/-- The bits of an RC-channels payload, `N_CHANNELS` fields of `CH_BITS` bits with no padding: 176 (R68, R122). -/
@[simp] abbrev rcPayloadBits : Nat := nChannels * chBits

/-- The bytes of an RC-channels payload: 22 (R68). -/
@[simp] abbrev rcPayloadBytes : Nat := rcPayloadBits / byteWidth

/-- `FRAME_TIMEOUT_US` (R6, R90). -/
def frameTimeoutUs : U32 := 1750

/-- `FC_ADDR` (R6). -/
def fcAddr : U8 := 0xC8

/-- `TYPE_RC_CHANNELS_PACKED` (R6). -/
def typeRcChannelsPacked : U8 := 0x16

/-- `TYPE_LINK_STATISTICS` (R6). -/
def typeLinkStatistics : U8 := 0x14

/-- `CRC_POLY` (R6, R110). -/
def crcPoly : U8 := 0xD5

/-- The initial value of the CRC (R6, R110). -/
def crcInit : U8 := 0x00

/-- `SCALE_K` is the decimal literal 0.62477120195241 (R6): this over `scaleDenominator`. -/
def scaleNumerator : Nat := 62477120195241

/-- Ten to the fourteenth, the denominator of `SCALE_K` as a decimal fraction (R123). -/
def scaleDenominator : Nat := 100000000000000

/-- `SCALE_OFFSET` (R6). -/
def scaleOffset : Nat := 881

/-- `ZERO_LEN_POLICY` (R8, R103): how a completed frame whose length field is 0 is treated. -/
inductive ZeroLenPolicy where
  /-- The reversed CRC range is read as empty (R102). The spec's default. -/
  | literal
  /-- The completion records `Fault(ZeroLengthFrame)` (R103). -/
  | fault
deriving DecidableEq, Repr

/-- The arguments of power-on (R8, R150): what the spec leaves open there. `buffer` is `POWER_ON_BUFFER`, any 64 bytes.
`pos`, `ch` and `lastValid` are the registers R150 calls unspecified. -/
structure PowerOn where
  buffer : Vector U8 frameSizeMax
  pos : Fin (frameSizeMax + 1)
  ch : Vector U16 nChannels
  lastValid : U32
  zeroLenPolicy : ZeroLenPolicy
deriving DecidableEq, Repr

/-- The power-on that `State.reset` takes: zeros, and the spec's default policy.
DESIGN CHOICE (log 1): the spec gives no value for the buffer, `pos`, `ch` and `lastValid`. -/
def defaultPowerOn : PowerOn where
  buffer := Vector.replicate frameSizeMax 0
  pos := 0
  ch := Vector.replicate nChannels 0
  lastValid := 0
  zeroLenPolicy := .literal

end Sys2Proof.Config
end

