-- ==== Sys2Proof/Machine/State.lean ====
section
/-! DEFINITION. The state of the block as plain data (10_state.md R20 to R33), the agents that drive it (60_exceptions.md
R140, R141), the fault and refusal reasons (R131 to R133), and the state at power-on (70_reset_and_hazards.md R150). -/

namespace Sys2Proof.Machine

open Sys2Proof

/-- The faults of R131 and R133. A fault is RECORDED in `State.faults` and the run goes on (R131, R136), so no step of
this model ends in one; log 3 says why that is the spec's own reading. -/
inductive Fault where
  /-- `HostFault(NotInitialized)`: PROCESS_BYTE, GET_CHANNEL or IS_CONNECTED before the first INIT (R131). Recorded by
  those three meanings. Safe: the spec says the command then has no other effect. -/
  | notInitialized
  /-- `HostFault(InitOverlap)`: INIT while slot writes are pending (R131, R142). Recorded by INIT. Safe, as above. -/
  | initOverlap
  /-- `Fault(ZeroLengthFrame)`: a frame with length field 0 completes under the policy `fault` (R103, R133). Recorded by
  PROCESS_BYTE. Safe: the spec gives the state it leaves. -/
  | zeroLengthFrame
deriving DecidableEq, Repr

/-- The reasons of R132, and the host's reason for an arm without a meaning. A refused command SETS `State.refused` and
the run goes on (R65, R80), so no step of this model ends in one (log 3). -/
inductive Refusal where
  /-- Raised by no arm: every instruction has its meaning. Safe: it stops the run. -/
  | notModelled (mnemonic : String)
  /-- `ReservedBits`: a command word with a non-zero reserved field (R65, R132). Given by the step when the decoder
  refuses a word. Safe: the spec says such a word has no effect but the mark. -/
  | reservedBits
  /-- `WrongAgent`: a PROCESS_BYTE in the Consumer's program (R132, R140). Given by PROCESS_BYTE. Safe, as above. -/
  | wrongAgent
deriving DecidableEq, Repr

/-- The host agents (R140). -/
inductive Agent where
  | byteSource
  | consumer
deriving DecidableEq, Repr

/-- One agent's command sequence, its position in it, and the responses it has received, oldest first (R27, R143). -/
structure AgentState where
  program : List CmdWord
  position : Nat
  responses : List U16
deriving DecidableEq, Repr

/-- One choice of the environment: which step is taken next (R141). A Retire step names the slot it retires (R28). -/
inductive Turn where
  | byteSource
  | consumer
  | retire (slot : Fin Config.nDecoded)
deriving DecidableEq, Repr

/-- The set of recorded faults (R29): for each reason, whether it has been recorded. -/
structure FaultSet where
  notInitialized : Bool
  initOverlap : Bool
  zeroLengthFrame : Bool
deriving DecidableEq, Repr

/-- The empty set of faults. -/
def FaultSet.empty : FaultSet := ⟨false, false, false⟩

/-- Membership in the set of recorded faults. -/
def FaultSet.has (fs : FaultSet) : Fault → Bool
  | .notInitialized => fs.notInitialized
  | .initOverlap => fs.initOverlap
  | .zeroLengthFrame => fs.zeroLengthFrame

/-- The slot writes of a decoded frame that have not retired: for each of the eight slots, its value if one is pending.
At most one write of a slot is pending at a time, since the ByteSource holds until all have retired (R28, R141, log 9). -/
abbrev Pending := Vector (Option U16) Config.nDecoded

/-- No pending write. -/
def noWrites : Pending := Vector.replicate Config.nDecoded none

/-- All the state the spec gives the block, and the model's own fields, which the docstrings name. -/
structure State where
  /-- `frame_buffer` (R21). -/
  buf : Vector U8 Config.frameSizeMax
  /-- `frame_position`, 0 to 64 (R22). -/
  pos : Fin (Config.frameSizeMax + 1)
  /-- `frame_start_time_us` (R23). -/
  start : U32
  /-- `channels` (R24). -/
  ch : Vector U16 Config.nChannels
  /-- `last_valid_frame_time_us` (R25). -/
  lastValid : U32
  /-- The hidden set of slot writes (R28). -/
  pending : Pending
  /-- Whether an INIT has completed since power-on (R29). -/
  initDone : Bool
  /-- The recorded faults, never cleared (R29). -/
  faults : FaultSet
  /-- The refusal mark, never cleared (R29). -/
  refused : Bool
  /-- `ZERO_LEN_POLICY` (R8, R103): fixed at power-on, written by nothing (log 2). -/
  zeroLenPolicy : Config.ZeroLenPolicy
  /-- The ByteSource's commands and responses (R140). -/
  src : AgentState
  /-- The Consumer's commands and responses (R140). -/
  con : AgentState
  /-- The model's own: the agent whose command is being executed, to whom a response goes (R11, log 8). -/
  issuer : Agent
  /-- The model's own: the timestamp of a PROCESS_BYTE that stands at the hand-off of R96, between its CRC check and its
  dispatch. It is none between commands (log 5). -/
  atDispatch : Option U32
  /-- The model's own: the interleaving the environment chooses, next turn first (R141, log 6). -/
  schedule : List Turn
deriving DecidableEq, Repr

/-- An agent with nothing to issue. -/
def AgentState.idle : AgentState := ⟨[], 0, []⟩

/-- Power-on (R150), with what the spec leaves open there as arguments (R8). No program is loaded yet (log 7). -/
def State.powerOn (p : Config.PowerOn) : State where
  buf := p.buffer
  pos := p.pos
  start := 0
  ch := p.ch
  lastValid := p.lastValid
  pending := noWrites
  initDone := false
  faults := FaultSet.empty
  refused := false
  zeroLenPolicy := p.zeroLenPolicy
  src := AgentState.idle
  con := AgentState.idle
  issuer := .byteSource
  atDispatch := none
  schedule := []

/-- The machine right after reset: power-on with the arguments of `Config.defaultPowerOn` (R150; DESIGN CHOICE, log 1). -/
def State.reset : State := State.powerOn Config.defaultPowerOn

end Sys2Proof.Machine
end

