-- ==== Sys2Proof/Machine/Ops.lean ====
section
/-! DEFINITION. The named operations on the state: the primitives of 00_scope.md R11, and one update for each register.
The block has no trap entry and no trap return (60_exceptions.md R136, R137); what stands in their place is recording a
fault (R131) and setting the refusal mark (R132). -/

namespace Sys2Proof.Machine

open Sys2Proof

/-- `pos <- p`. -/
def State.setPos (s : State) (p : Fin (Config.frameSizeMax + 1)) : State := { s with pos := p }

/-- `start <- t`. -/
def State.setStart (s : State) (t : U32) : State := { s with start := t }

/-- `buf[i] <- b` (R11). -/
def State.setByte (s : State) (i : Fin Config.frameSizeMax) (b : U8) : State :=
  { s with buf := s.buf.set i.val b i.isLt }

/-- Every channel slot is zeroed, as INIT does (R81). -/
def State.zeroChannels (s : State) : State := { s with ch := Vector.replicate Config.nChannels 0 }

/-- `ch[i] <- v` for one of the slots a frame decodes (R28, R125). -/
def State.setChannel (s : State) (i : Fin Config.nDecoded) (v : U16) : State :=
  { s with ch := s.ch.set i.val v (Nat.lt_of_lt_of_le i.isLt (by decide)) }

/-- `lastValid <- t` (R127). -/
def State.setLastValid (s : State) (t : U32) : State := { s with lastValid := t }

/-- The pending set becomes `p`. -/
def State.setPending (s : State) (p : Pending) : State := { s with pending := p }

/-- `initDone <- true` (R81). -/
def State.setInitDone (s : State) : State := { s with initDone := true }

/-- The dispatch point of R96 is entered or left. -/
def State.setAtDispatch (s : State) (d : Option U32) : State := { s with atDispatch := d }

/-- Agent `a` issues the command that is executed next. -/
def State.setIssuer (s : State) (a : Agent) : State := { s with issuer := a }

/-- The rest of the environment's choices. -/
def State.setSchedule (s : State) (ts : List Turn) : State := { s with schedule := ts }

/-- The agent's sequence, position and responses. -/
def State.agent (s : State) : Agent → AgentState
  | .byteSource => s.src
  | .consumer => s.con

/-- The agent's sequence, position and responses become `x`. -/
def State.setAgent (s : State) (a : Agent) (x : AgentState) : State :=
  match a with
  | .byteSource => { s with src := x }
  | .consumer => { s with con := x }

/-- The set with one more reason. -/
def FaultSet.record (fs : FaultSet) : Fault → FaultSet
  | .notInitialized => { fs with notInitialized := true }
  | .initOverlap => { fs with initOverlap := true }
  | .zeroLengthFrame => { fs with zeroLengthFrame := true }

/-- `raise HostFault(reason)` and `raise Fault(reason)` (R11, R131, R133): the reason is recorded and nothing else
changes. -/
def State.raise (s : State) (f : Fault) : State := { s with faults := s.faults.record f }

/-- `refuse(reason)` (R11, R132): the mark is set and nothing else changes. The spec keeps no reason. -/
def State.refuse (s : State) (_reason : Refusal) : State := { s with refused := true }

/-- `respond(v)` (R11, R64): the issuing agent receives the response word. -/
def State.respond (s : State) (v : U16) : State :=
  s.setAgent s.issuer { s.agent s.issuer with responses := (s.agent s.issuer).responses ++ [v] }

/-- The agent's position advances by one (R27). -/
def State.advance (s : State) (a : Agent) : State :=
  s.setAgent a { s.agent a with position := (s.agent a).position + 1 }

/-- One Retire step's work (R28, R140): the slot's pending write is performed and leaves the set. -/
def State.retire (s : State) (i : Fin Config.nDecoded) : State :=
  match s.pending[i.val]'i.isLt with
  | none => s
  | some v => (s.setChannel i v).setPending (s.pending.set i.val none i.isLt)

end Sys2Proof.Machine
end

