-- ==== Sys2Proof/Machine/Agents.lean ====
section
/-! DEFINITION. The agents and their scheduling (60_exceptions.md R140, R141): which steps are enabled, which one is taken,
how a command begins and completes, and how a program is loaded (10_state.md R27). -/

namespace Sys2Proof.Machine

open Sys2Proof

/-- The agent has a command left to issue (R141, R143). -/
def State.hasCommand (s : State) (a : Agent) : Bool := decide ((s.agent a).position < (s.agent a).program.length)

/-- The ByteSource holds while slot writes are pending: its PROCESS_BYTE has not completed (R28, R141). -/
def State.sourceHolds (s : State) : Bool := decide (s.pending ≠ noWrites)

/-- The step a turn names is enabled (R141). -/
def State.enabled (s : State) : Turn → Bool
  | .byteSource => !s.sourceHolds && s.hasCommand .byteSource
  | .consumer => s.hasCommand .consumer
  | .retire i => (s.pending[i.val]'i.isLt).isSome

/-- The turn taken when the environment has made no choice: pending writes retire first, lowest slot first, so `pending`
always drains (R141's weak fairness), then the ByteSource, then the Consumer. None when nothing is enabled (log 6). -/
def State.fairTurn (s : State) : Option Turn :=
  match (List.finRange Config.nDecoded).find? (fun i => s.enabled (.retire i)) with
  | some i => some (.retire i)
  | none =>
    if s.enabled .byteSource then some .byteSource
    else if s.enabled .consumer then some .consumer
    else none

/-- The turn this step takes: the environment's next choice if it is enabled, and no turn if it is not (log 6). -/
def State.turn (s : State) : Option Turn :=
  match s.schedule with
  | [] => s.fairTurn
  | t :: _ => if s.enabled t then some t else none

/-- The state once the environment's next choice has been read. -/
def State.takeTurn (s : State) : State := s.setSchedule s.schedule.tail

/-- The agent's next command word (R27). -/
def State.fetch (s : State) (a : Agent) : Option CmdWord := (s.agent a).program[(s.agent a).position]?

/-- The agent's command completes, and its position advances (R27): the Consumer's at once, the ByteSource's only when no
slot write is pending (R28, R52). -/
def State.finish (s : State) (a : Agent) : State :=
  match a with
  | .byteSource => if s.pending = noWrites then s.advance .byteSource else s
  | .consumer => s.advance .consumer

/-- A Retire step: one write retires, and the ByteSource's command completes with the last of them (R28). -/
def State.retireStep (s : State) (i : Fin Config.nDecoded) : State := (s.retire i).finish .byteSource

/-- An outcome's next state, changed by `f`. -/
def mapNext (f : State → State) : Host.Outcome State Fault Refusal → Host.Outcome State Fault Refusal
  | .next s => .next (f s)
  | .fault r => .fault r
  | .refused r => .refused r

/-- The host loads a command sequence for each agent and fixes the interleaving (R27, R141, log 7). -/
def State.load (s : State) (source consumer : List CmdWord) (schedule : List Turn) : State :=
  { s with src := ⟨source, 0, []⟩, con := ⟨consumer, 0, []⟩, schedule := schedule }

/-- The agent's sequence with `w` as its next command word. -/
def AgentState.withNext (x : AgentState) (w : CmdWord) : AgentState :=
  { x with program := x.program.take x.position ++ w :: x.program.drop (x.position + 1),
           position := min x.position x.program.length }

/-- A command word placed where the very next step takes it: as the ByteSource's next command, with the turn its own. -/
def State.placeCommand (s : State) (w : CmdWord) : State :=
  { s with src := s.src.withNext w, schedule := .byteSource :: s.schedule, pending := noWrites, atDispatch := none }

/-- A frame header placed where the very next step takes it: in `buf[0..2]`, with the frame at dispatch. The completing
byte's timestamp is that of the frame's first byte (DESIGN CHOICE, log 5). -/
def State.placeHeader (s : State) (address frameLength frameType : U8) : State :=
  (((s.setByte 0 address).setByte 1 frameLength).setByte 2 frameType).setAtDispatch (some s.start)

end Sys2Proof.Machine
end

