-- ==== Sys2Proof/Syntax.lean ====
section
/-! DEFINITION. The instructions: one constructor for each row of opcode_table.json, the four commands of 30_encoding.md
R62 and the three frame headers of the dispatch map R69. -/

namespace Sys2Proof

/-- The rows of opcode_table.json, each with the operand fields its encoding carries (R60, R61, R63, R69). -/
inductive Instr where
  /-- `INIT`: initialize() (R81). -/
  | init
  /-- `PROCESS_BYTE`: process_byte(byte, timestamp_us) (R82). -/
  | processByte (byte : U8) (t : U32)
  /-- `GET_CHANNEL`: get_channel(index); the index is the `s32` these 32 bits spell (R63, R83). -/
  | getChannel (index : U32)
  /-- `IS_CONNECTED`: is_connected() (R84). -/
  | isConnected
  /-- `FRAME_RC_CHANNELS_PACKED_FC`: a frame of type 0x16 addressed to 0xC8 at dispatch (R69, R120). -/
  | frameRcChannelsPackedFc (frameLength : U8)
  /-- `FRAME_LINK_STATISTICS`: a frame of type 0x14 at dispatch (R69, R128). -/
  | frameLinkStatistics (address frameLength : U8)
  /-- `FRAME_OTHER`: a frame with any other header at dispatch (R69, R128). -/
  | frameOther (address frameLength frameType : U8)
deriving DecidableEq, Repr

end Sys2Proof
end

