-- ==== Sys2Proof/WellFormed.lean ====
section
/-! DEFINITION. Which instruction terms stand for an encoding. The operand fields have the widths of 30_encoding.md R61
and R69 by their types, so every command is well formed. The first matching row of the dispatch map applies (R69), so a
`frameOther` term is well formed only when no earlier row matches its header. -/

namespace Sys2Proof

/-- The header is that of `FRAME_RC_CHANNELS_PACKED_FC` (R69, R120). -/
def isRcHeader (address frameType : U8) : Bool :=
  address == Config.fcAddr && frameType == Config.typeRcChannelsPacked

/-- The header is that of `FRAME_LINK_STATISTICS` (R69). -/
def isLinkStatisticsHeader (frameType : U8) : Bool :=
  frameType == Config.typeLinkStatistics

/-- The checks an instruction term must pass: for `frameOther`, that neither earlier row of the map matches (R69). -/
def Instr.wellFormed : Instr → Bool
  | .init => true
  | .processByte _ _ => true
  | .getChannel _ => true
  | .isConnected => true
  | .frameRcChannelsPackedFc _ => true
  | .frameLinkStatistics _ _ => true
  | .frameOther address _ frameType =>
    !isRcHeader address frameType && !isLinkStatisticsHeader frameType

end Sys2Proof
end

