-- ==== Sys2Proof/Decode.lean ====
section
/-! DEFINITION. Decoding and encoding of command words (30_encoding.md R60 to R65) and of frame headers (R66, R69), and
the rows of opcode_table.json as data. -/

namespace Sys2Proof

/-- Why the decoder gives a command word no instruction (60_exceptions.md R132). -/
inductive DecodeRefusal where
  /-- A reserved field of the word is not zero (R65). -/
  | reservedBits
deriving DecidableEq, Repr

/-- `OP = CMD[1:0]` (R61). -/
def cmdOp (w : CmdWord) : BitVec 2 := w.extractLsb' 0 2

/-- `RSV = CMD[7:2]` (R61). -/
def cmdRsv (w : CmdWord) : BitVec 6 := w.extractLsb' 2 6

/-- `DATA = CMD[15:8]` (R61). -/
def cmdData (w : CmdWord) : U8 := w.extractLsb' 8 8

/-- `ARG = CMD[47:16]` (R61). -/
def cmdArg (w : CmdWord) : U32 := w.extractLsb' 16 32

/-- The word with these four fields (R61). -/
def cmdOfFields (op : BitVec 2) (rsv : BitVec 6) (data : U8) (arg : U32) : CmdWord := arg ++ data ++ rsv ++ op

/-- The command a 48-bit word spells, or its refusal (R62, R63, R65). -/
def decodeCommand (w : CmdWord) : Except DecodeRefusal Instr :=
  if cmdRsv w ≠ 0 then .error .reservedBits
  else if cmdOp w = 0b00 then
    if cmdData w ≠ 0 ∨ cmdArg w ≠ 0 then .error .reservedBits else .ok .init
  else if cmdOp w = 0b01 then .ok (.processByte (cmdData w) (cmdArg w))
  else if cmdOp w = 0b10 then
    if cmdData w ≠ 0 then .error .reservedBits else .ok (.getChannel (cmdArg w))
  else
    if cmdData w ≠ 0 ∨ cmdArg w ≠ 0 then .error .reservedBits else .ok .isConnected

/-- Bits 23:16 of the header, the byte that arrived first (R69). -/
def headerAddress (h : Header) : U8 := h.extractLsb' 16 8

/-- Bits 15:8 of the header (R69). -/
def headerLength (h : Header) : U8 := h.extractLsb' 8 8

/-- Bits 7:0 of the header (R69). -/
def headerType (h : Header) : U8 := h.extractLsb' 0 8

/-- The header of a frame from its first three bytes in wire order (R69, 20_memory.md R43). -/
def headerOfFields (address frameLength frameType : U8) : Header := address ++ frameLength ++ frameType

/-- The row of the dispatch map a header takes: the first that matches (R69). Every header takes one (R70). -/
def decodeHeader (h : Header) : Instr :=
  if isRcHeader (headerAddress h) (headerType h) then .frameRcChannelsPackedFc (headerLength h)
  else if isLinkStatisticsHeader (headerType h) then .frameLinkStatistics (headerAddress h) (headerLength h)
  else .frameOther (headerAddress h) (headerLength h) (headerType h)

/-- The two encodings of the block: a command word and the header of a frame at dispatch. -/
inductive Encoded where
  | command (w : CmdWord)
  | header (h : Header)
deriving DecidableEq, Repr

/-- The decoder, total on every word and every header. -/
def decode : Encoded → Except DecodeRefusal Instr
  | .command w => decodeCommand w
  | .header h => .ok (decodeHeader h)

/-- The encoding of an instruction (R61 to R63, R69). -/
def encode : Instr → Encoded
  | .init => .command (cmdOfFields 0b00 0 0 0)
  | .processByte byte t => .command (cmdOfFields 0b01 0 byte t)
  | .getChannel index => .command (cmdOfFields 0b10 0 0 index)
  | .isConnected => .command (cmdOfFields 0b11 0 0 0)
  | .frameRcChannelsPackedFc len => .header (headerOfFields Config.fcAddr len Config.typeRcChannelsPacked)
  | .frameLinkStatistics address len => .header (headerOfFields address len Config.typeLinkStatistics)
  | .frameOther address len type => .header (headerOfFields address len type)

/-- The command word of a command, and nothing for a frame header, which no host issues. -/
def commandWord? (i : Instr) : Option CmdWord :=
  match encode i with
  | .command w => some w
  | .header _ => none

/-- The instruction whose bits opcode_table.json would number as `w`: 48 bits are a command word, 24 bits a header.
No row has another width, and a number of more than `nbits` bits is no such word. -/
def decodeTableWord (nbits w : Nat) : Option Instr :=
  if nbits = 48 then
    if w < 2 ^ 48 then (decodeCommand (BitVec.ofNat 48 w)).toOption else none
  else if nbits = 24 then
    if w < 2 ^ 24 then some (decodeHeader (BitVec.ofNat 24 w)) else none
  else none

/-- One row of opcode_table.json: a word of `n` bits matches it when its masked bits equal the pattern. -/
structure OpcodeRow (n : Nat) where
  mnemonic : String
  pattern : BitVec n
  mask : BitVec n
deriving DecidableEq, Repr

/-- A word matches a row. -/
def OpcodeRow.hits {n : Nat} (r : OpcodeRow n) (w : BitVec n) : Bool := w &&& r.mask == r.pattern

def initRow : OpcodeRow 48 := ⟨"INIT", 0x000000000000, 0xFFFFFFFFFFFF⟩
def processByteRow : OpcodeRow 48 := ⟨"PROCESS_BYTE", 0x000000000001, 0x0000000000FF⟩
def getChannelRow : OpcodeRow 48 := ⟨"GET_CHANNEL", 0x000000000002, 0x00000000FFFF⟩
def isConnectedRow : OpcodeRow 48 := ⟨"IS_CONNECTED", 0x000000000003, 0xFFFFFFFFFFFF⟩
def rcChannelsRow : OpcodeRow 24 := ⟨"FRAME_RC_CHANNELS_PACKED_FC", 0xC80016, 0xFF00FF⟩
def linkStatisticsRow : OpcodeRow 24 := ⟨"FRAME_LINK_STATISTICS", 0x000014, 0x0000FF⟩
def otherRow : OpcodeRow 24 := ⟨"FRAME_OTHER", 0x000000, 0x000000⟩

/-- The rows with `format = "command"` (R65). -/
def commandRows : List (OpcodeRow 48) := [initRow, processByteRow, getChannelRow, isConnectedRow]

/-- The rows with `format = "crsf_frame_header"`, in their order of priority (R69). -/
def headerRows : List (OpcodeRow 24) := [rcChannelsRow, linkStatisticsRow, otherRow]

/-- The mnemonics of the rows a command word matches. -/
def matchingCommandRows (w : CmdWord) : List String := (commandRows.filter (·.hits w)).map (·.mnemonic)

/-- The mnemonic of the first row a header matches. -/
def firstHeaderRow (h : Header) : Option String := (headerRows.find? (·.hits h)).map (·.mnemonic)

/-- The mnemonic of an instruction's row. -/
def Instr.mnemonic : Instr → String
  | .init => initRow.mnemonic
  | .processByte _ _ => processByteRow.mnemonic
  | .getChannel _ => getChannelRow.mnemonic
  | .isConnected => isConnectedRow.mnemonic
  | .frameRcChannelsPackedFc _ => rcChannelsRow.mnemonic
  | .frameLinkStatistics _ _ => linkStatisticsRow.mnemonic
  | .frameOther _ _ _ => otherRow.mnemonic

end Sys2Proof
end

