-- ==== Sys2Proof/Machine/Operands.lean ====
section
/-! DEFINITION. Operand forms: the channel index of GET_CHANNEL (30_encoding.md R63, 40_commands.md R83), and the header
and length a frame's bytes spell (30_encoding.md R67, R69). No immediate is scaled, shifted or split (R63). -/

namespace Sys2Proof.Machine

open Sys2Proof

/-- The slot a GET_CHANNEL index names, compared as a signed integer: none outside 0..15 (R63, R83). -/
def channelSlot (index : U32) : Option (Fin Config.nChannels) :=
  if h : 0 ≤ index.toInt ∧ index.toInt < (Config.nChannels : Int) then some ⟨index.toInt.toNat, by omega⟩ else none

/-- What GET_CHANNEL answers: the slot, or the sentinel 0 (R83). -/
def State.channelAt (s : State) (index : U32) : U16 :=
  match channelSlot index with
  | some i => s.ch[i.val]'i.isLt
  | none => 0

/-- `H = buf[0] ++ buf[1] ++ buf[2]` (R69). -/
def State.frameHeader (s : State) : Header := headerOfFields s.buf[0] s.buf[1] s.buf[2]

/-- `total = zext_9(buf[1]) + 2`, exact, 2 to 257 (R67, R93). -/
def State.total (s : State) : Nat := s.buf[1].toNat + 2

end Sys2Proof.Machine
end

