-- ==== Sys2Proof/Machine/Flags.lean ====
section
/-! DEFINITION. The block has no flags, condition codes or status registers (10_state.md R26). Its only status is implicit
in `pos` (R30): this file reads it off. -/

namespace Sys2Proof.Machine

open Sys2Proof

/-- The implicit states of the reassembler between commands (R30). COMPLETE is never held. -/
inductive Reassembler where
  | idle
  | accumulating
  | stalled
deriving DecidableEq, Repr

/-- The reassembler's state (R30). STALLED is the special case of ACCUMULATING at `pos = 64`. -/
def State.reassembler (s : State) : Reassembler :=
  if s.pos.val = 0 then .idle
  else if s.pos.val = Config.frameSizeMax then .stalled
  else .accumulating

/-- The frame in progress is complete: three bytes have arrived and as many as its length says (R93, R94). -/
def State.frameComplete (s : State) : Bool := decide (2 < s.pos.val ∧ s.total ≤ s.pos.val)

end Sys2Proof.Machine
end

