-- ==== Sys2Proof/Machine/Channels.lean ====
section
/-! DEFINITION. Unpacking and rescaling of channel values (43_channel_decode.md R122 to R124). -/

namespace Sys2Proof.Machine

open Sys2Proof

/-- The integer a sequence of bytes spells, least significant byte first (20_memory.md R44). -/
def littleEndian (n : Nat) : List U8 → BitVec n
  | [] => 0
  | b :: bs => b.setWidth n ||| (littleEndian n bs <<< 8)

/-- The payload bytes `buf[3]` to `buf[24]` of an RC-channels frame (R68, R122). -/
def payloadBytes (buf : Vector U8 Config.frameSizeMax) : List U8 := (buf.toList.drop 3).take Config.rcPayloadBytes

/-- The payload as a 176-bit little-endian integer (R122). -/
def payload (buf : Vector U8 Config.frameSizeMax) : BitVec Config.rcPayloadBits :=
  littleEndian Config.rcPayloadBits (payloadBytes buf)

/-- `Unpack(buf, i)`: the eleven bits of the payload from bit `11*i` up (R122). -/
def unpack (buf : Vector U8 Config.frameSizeMax) (i : Nat) : Raw := (payload buf).extractLsb' (Config.chBits * i) Config.chBits

/-- `Rescale(r)`, in exact integer arithmetic (R123). -/
def rescale (r : Raw) : U16 :=
  BitVec.ofNat Config.chWidth
    (Config.scaleOffset + (r.toNat * Config.scaleNumerator + Config.scaleDenominator / 2) / Config.scaleDenominator)

/-- The eight slot writes of a decoded frame: `(i, Rescale(Unpack(buf, i)))` for i in 0..7 (R121). -/
def decodedWrites (buf : Vector U8 Config.frameSizeMax) : Pending :=
  Vector.ofFn fun i => some (rescale (unpack buf i.val))

end Sys2Proof.Machine
end

