-- ==== Sys2Proof/Machine/Frames.lean ====
section
/-! DEFINITION. Dispatch of a frame that has passed its CRC check (30_encoding.md R69, 43_channel_decode.md R120 to R128),
and the meanings of the three header rows. A frame stands at dispatch when `atDispatch` holds the timestamp of the byte that
completed it (41_reassembly.md R96). -/

namespace Sys2Proof.Machine

open Sys2Proof

/-- The effect of a decoded frame (R121, R127): its eight slot writes become pending and `lastValid <- t`. -/
def State.decodeFrame (s : State) (t : U32) : State := (s.setPending (decodedWrites s.buf)).setLastValid t

/-- Dispatch to the RC-channels row: the frame at dispatch is decoded, whatever its length field (R120, R121, R126). -/
def State.dispatchRcChannels (s : State) : State :=
  match s.atDispatch with
  | none => s
  | some t => (s.setAtDispatch none).decodeFrame t

/-- Dispatch to a row that is ignored: nothing changes but that the frame is no longer at dispatch (R128). -/
def State.dispatchIgnored (s : State) : State := s.setAtDispatch none

/-- Step 5d, the dispatch condition (R120): the address is 0xC8 and the type 0x16, else the frame is ignored (R128). -/
def State.dispatchFrame (s : State) : State :=
  if isRcHeader s.buf[0] s.buf[2] then s.dispatchRcChannels else s.dispatchIgnored

/-- FRAME_RC_CHANNELS_PACKED_FC (R69, R120, R121). The length field is not checked (R126). -/
def execFrameRcChannelsPackedFc (_frameLength : U8) (s : State) : Host.Outcome State Fault Refusal :=
  .next s.dispatchRcChannels

/-- FRAME_LINK_STATISTICS (R69, R128): not decoded. -/
def execFrameLinkStatistics (_address _frameLength : U8) (s : State) : Host.Outcome State Fault Refusal :=
  .next s.dispatchIgnored

/-- FRAME_OTHER (R69, R128): ignored, and no error (R70). -/
def execFrameOther (_address _frameLength _frameType : U8) (s : State) : Host.Outcome State Fault Refusal :=
  .next s.dispatchIgnored

end Sys2Proof.Machine
end

