-- ==== Sys2Proof/Machine/Reassembly.lean ====
section
/-! DEFINITION. The steps of PROCESS_BYTE (41_reassembly.md R90 to R96, R103; 42_crc8.md R111, R112), each one function, in
the order of 60_exceptions.md R134. -/

namespace Sys2Proof.Machine

open Sys2Proof

/-- The frame in progress has outlived the timeout at `t`: elapsed time modulo 2^32, compared unsigned and strictly
(R90, R100, R101). -/
def State.timedOut (s : State) (t : U32) : Bool := Config.frameTimeoutUs < t - s.start

/-- Step 1, the timeout check (R90). -/
def State.checkTimeout (s : State) (t : U32) : State := if s.timedOut t then s.setPos 0 else s

/-- Step 2, the start of a frame (R91). -/
def State.stampStart (s : State) (t : U32) : State := if s.pos.val = 0 then s.setStart t else s

/-- Step 3, the bounds guard: store at `buf[pos]`, or drop the byte when the buffer is full (R92, R97). -/
def State.storeByte (s : State) (b : U8) : State :=
  if h : s.pos.val < Config.frameSizeMax then
    (s.setByte ⟨s.pos.val, h⟩ b).setPos ⟨s.pos.val + 1, Nat.succ_lt_succ h⟩
  else s

/-- Steps 1 to 3 (R90 to R92). -/
def State.receive (s : State) (b : U8) (t : U32) : State := ((s.checkTimeout t).stampStart t).storeByte b

/-- A completed frame with length field 0 is a fault under the policy `fault` (R103). -/
def State.zeroLengthFault (s : State) : Bool := decide (s.total = 2 ∧ s.zeroLenPolicy = .fault)

/-- Steps 5a to 7 on a completed frame: `pos <- 0` (R95), the zero-length policy (R103), the CRC (R111, R112), and on a
match the hand-off to dispatch (R96, R120). -/
def State.completeFrame (s : State) (t : U32) : State :=
  if s.zeroLengthFault then (s.setPos 0).raise .zeroLengthFrame
  else if s.crcMatches then ((s.setPos 0).setAtDispatch (some t)).dispatchFrame
  else s.setPos 0

/-- The whole of PROCESS_BYTE after its initialisation check, but for the retirement of its slot writes (R82). -/
def State.processByte (s : State) (b : U8) (t : U32) : State :=
  if (s.receive b t).frameComplete then (s.receive b t).completeFrame t else s.receive b t

end Sys2Proof.Machine
end

