-- ==== Sys2Proof/Machine/Commands.lean ====
section
/-! DEFINITION. The meanings of the four commands (40_commands.md R80 to R84). A meaning does not move the agent's position:
the step does, when the command completes (10_state.md R27, R28). -/

namespace Sys2Proof.Machine

open Sys2Proof

/-- A command other than INIT before the first INIT records NotInitialized and does nothing else (R80, R131). -/
def State.afterInit (s : State) (effect : State) : State := if s.initDone then effect else s.raise .notInitialized

/-- INIT (R81): InitOverlap while writes are pending (R142), else `pos <- 0`, every channel 0, `initDone <- true`. -/
def execInit (s : State) : Host.Outcome State Fault Refusal :=
  if s.pending = noWrites then .next ((s.setPos 0).zeroChannels).setInitDone else .next (s.raise .initOverlap)

/-- PROCESS_BYTE (R82). The Consumer's is refused before anything else (R132, R134, R140). -/
def execProcessByte (byte : U8) (t : U32) (s : State) : Host.Outcome State Fault Refusal :=
  match s.issuer with
  | .consumer => .next (s.refuse .wrongAgent)
  | .byteSource => .next (s.afterInit (s.processByte byte t))

/-- GET_CHANNEL (R83): the issuing agent receives the slot's value, or 0 for an index outside 0..15. -/
def execGetChannel (index : U32) (s : State) : Host.Outcome State Fault Refusal :=
  .next (s.afterInit (s.respond (s.channelAt index)))

/-- IS_CONNECTED (R84): the stub, always 0x0001. -/
def execIsConnected (s : State) : Host.Outcome State Fault Refusal := .next (s.afterInit (s.respond 0x0001))

end Sys2Proof.Machine
end

