-- ==== Sys2Proof/Machine/Dispatch.lean ====
section
/-! DEFINITION. One arm for each constructor of Instr. -/

namespace Sys2Proof.Machine

open Sys2Proof

def exec (i : Instr) (s : State) : Host.Outcome State Fault Refusal :=
  match i with
  | .init => Sys2Proof.Machine.execInit s
  | .processByte byte t => Sys2Proof.Machine.execProcessByte byte t s
  | .getChannel index => Sys2Proof.Machine.execGetChannel index s
  | .isConnected => Sys2Proof.Machine.execIsConnected s
  | .frameRcChannelsPackedFc frameLength => Sys2Proof.Machine.execFrameRcChannelsPackedFc frameLength s
  | .frameLinkStatistics address frameLength => Sys2Proof.Machine.execFrameLinkStatistics address frameLength s
  | .frameOther address frameLength frameType => Sys2Proof.Machine.execFrameOther address frameLength frameType s

end Sys2Proof.Machine
end

