-- ==== Sys2Proof/Machine/Step.lean ====
section
/-! DEFINITION. One step of the machine (60_exceptions.md R141): an agent's command, or one Retire step, or, for a frame
that stands at dispatch, the rest of its PROCESS_BYTE (41_reassembly.md R96). -/

namespace Sys2Proof.Machine

open Sys2Proof

/-- The agent's next command word is decoded and executed, and the command completes if nothing stays pending (R27, R80).
A word the decoder refuses sets the refusal mark and does nothing else (R65). -/
def runCommand (a : Agent) (s : State) : Host.Outcome State Fault Refusal :=
  match s.fetch a with
  | none => .next s
  | some w =>
    match decodeCommand w with
    | .error .reservedBits => .next (((s.setIssuer a).refuse .reservedBits).finish a)
    | .ok i => mapNext (fun s' => s'.finish a) (exec i (s.setIssuer a))

/-- The frame at dispatch goes on as the instruction its header spells; its PROCESS_BYTE then completes (R69, R96). -/
def runDispatch (s : State) : Host.Outcome State Fault Refusal :=
  mapNext (fun s' => s'.finish .byteSource) (exec (decodeHeader s.frameHeader) s)

/-- One turn of an agent or of Retire; with no turn to take, the block waits (R152). -/
def runTurn (turn : Option Turn) (s : State) : Host.Outcome State Fault Refusal :=
  match turn with
  | some .byteSource => runCommand .byteSource s
  | some .consumer => runCommand .consumer s
  | some (.retire i) => .next (s.retireStep i)
  | none => .next s

/-- One step. A frame at dispatch goes first, so PROCESS_BYTE stays indivisible (20_memory.md R52). -/
def step (s : State) : Host.Outcome State Fault Refusal :=
  match s.atDispatch with
  | some _ => runDispatch s
  | none => runTurn s.turn s.takeTurn

/-- The state with one instruction of opcode_table.json placed where the very next step runs it: 24 bits are the header of a
frame at dispatch, any other width a command word. -/
def State.withFetchWord (s : State) (nbits w : Nat) : State :=
  if nbits = 24 then
    s.placeHeader (headerAddress (BitVec.ofNat 24 w)) (headerLength (BitVec.ofNat 24 w)) (headerType (BitVec.ofNat 24 w))
  else s.placeCommand (BitVec.ofNat 48 w)

end Sys2Proof.Machine
end

