-- ==== Sys2Proof/Machine/Assembler.lean ====
section
/-! DEFINITION. The assembler of 30_encoding.md: its lines and pseudo-instructions (R71, R72) as command words, and its
text, read from a list of characters (R71). It makes the agents' programs and has no part in the step. -/

namespace Sys2Proof.Machine

open Sys2Proof

/-- One line of an assembler program, its operands as written (R71, R72). R72 gives the times `t0` and `dt` no range, so they
are any integers here (DESIGN CHOICE, log 11). -/
inductive AsmLine where
  | init
  | byte (b t : Nat)
  | getch (index : Int)
  | conn
  | feed (t0 dt : Int) (bytes : List Nat)
  | frame (address frameType : Nat) (t0 dt : Int) (payload : List Nat)
  | rcframe (address : Nat) (t0 dt : Int) (raws : List Nat)
deriving DecidableEq, Repr

/-- An unsigned operand of `n` bits, refused when it does not fit (R71). -/
def operand? (n v : Nat) : Option (BitVec n) := if v < 2 ^ n then some (BitVec.ofNat n v) else none

/-- The index operand of GETCH: -2^31 to 2^31-1 (R71). -/
def index? (v : Int) : Option U32 := if -2 ^ 31 ≤ v ∧ v < 2 ^ 31 then some (BitVec.ofInt 32 v) else none

/-- A time of a pseudo-instruction, modulo 2^32 like the sums it enters (R72): no integer is refused (DESIGN CHOICE, log 11). -/
def time (v : Int) : U32 := BitVec.ofInt Config.tsWidth v

/-- Operands that all fit. -/
def operands? (n : Nat) : List Nat → Option (List (BitVec n))
  | [] => some []
  | v :: vs => do
    let x ← operand? n v
    let xs ← operands? n vs
    some (x :: xs)

/-- The words of FEED: the k-th byte is stamped `t0 + k*dt` modulo 2^32 (R72). -/
def feedWords (t dt : U32) : List U8 → List CmdWord
  | [] => []
  | b :: bs => cmdOfFields 0b01 0 b t :: feedWords (t + dt) dt bs

/-- The bytes of a frame: address, length, type, payload and the CRC of type and payload (R66, R72). -/
def frameBytes (address frameType : U8) (payload : List U8) : List U8 :=
  address :: BitVec.ofNat 8 (payload.length + 2) :: frameType :: (payload ++ [crc8 (frameType :: payload)])

/-- The raw channels as one integer, channel k at bit `11*k` (R72). -/
def packRaws : List Raw → Nat
  | [] => 0
  | r :: rs => r.toNat + 2 ^ Config.chBits * packRaws rs

/-- The `n` payload bytes of an integer, least significant first: `Pj = (R >> (8*j)) & 0xFF` (R72). -/
def packedBytes : Nat → Nat → List U8
  | 0, _ => []
  | n + 1, v => BitVec.ofNat 8 v :: packedBytes n (v / 256)

/-- The payload of RCFRAME: sixteen raw values in 22 bytes (R68, R72). -/
def rcPayload (raws : List Raw) : List U8 := packedBytes Config.rcPayloadBytes (packRaws raws)

/-- The command words of a line, or none when a byte, a raw value, a BYTE time or an index is out of its range (R71, R72).
FEED, FRAME and RCFRAME take every `t0` and `dt`, modulo 2^32 (DESIGN CHOICE, log 11). -/
def assemble : AsmLine → Option (List CmdWord)
  | .init => some [cmdOfFields 0b00 0 0 0]
  | .byte b t => do
    let x ← operand? Config.byteWidth b
    let y ← operand? Config.tsWidth t
    some [cmdOfFields 0b01 0 x y]
  | .getch index => do
    let x ← index? index
    some [cmdOfFields 0b10 0 0 x]
  | .conn => some [cmdOfFields 0b11 0 0 0]
  | .feed t0 dt bytes => do
    let bs ← operands? Config.byteWidth bytes
    some (feedWords (time t0) (time dt) bs)
  | .frame address frameType t0 dt payload => do
    let a ← operand? Config.byteWidth address
    let y ← operand? Config.byteWidth frameType
    let bs ← operands? Config.byteWidth payload
    if payload.length ≤ 60 then some (feedWords (time t0) (time dt) (frameBytes a y bs)) else none
  | .rcframe address t0 dt raws => do
    let a ← operand? Config.byteWidth address
    let rs ← operands? Config.chBits raws
    if raws.length = Config.nChannels then
      some (feedWords (time t0) (time dt) (frameBytes a Config.typeRcChannelsPacked (rcPayload rs)))
    else none

/-- The words of a program, line by line. -/
def assembleAll : List AsmLine → Option (List CmdWord)
  | [] => some []
  | l :: ls => do
    let ws ← assemble l
    let rest ← assembleAll ls
    some (ws ++ rest)

/-! The text of a line (R71): comments begin with `;`, numbers are decimal or hexadecimal, a label names an agent. -/

/-- The value of a digit in base 10 or 16. -/
def digit? (base : Nat) (c : Char) : Option Nat :=
  let n := c.toNat
  let d := if 48 ≤ n ∧ n ≤ 57 then some (n - 48)
    else if 65 ≤ n ∧ n ≤ 70 then some (n - 55)
    else if 97 ≤ n ∧ n ≤ 102 then some (n - 87)
    else none
  d.filter (· < base)

/-- The value of a sequence of digits after the value `v` of those before it. -/
def digits? (base : Nat) : Nat → List Char → Option Nat
  | v, [] => some v
  | v, c :: cs => do
    let d ← digit? base c
    digits? base (v * base + d) cs

/-- A number: decimal, or hexadecimal after `0x` (R71). -/
def natural? : List Char → Option Nat
  | [] => none
  | '0' :: 'x' :: c :: cs => digits? 16 0 (c :: cs)
  | c :: cs => digits? 10 0 (c :: cs)

/-- A number with an optional sign. -/
def integer? : List Char → Option Int
  | '-' :: cs => (natural? cs).map fun n => -(n : Int)
  | cs => (natural? cs).map fun n => (n : Int)

/-- A blank between the parts of a line. -/
def isBlank (c : Char) : Bool := c == ' ' || c == '\t'

/-- The text without the blanks at its ends. -/
def trimBlanks (cs : List Char) : List Char := ((cs.dropWhile isBlank).reverse.dropWhile isBlank).reverse

/-- The parts of a text between its commas. -/
def commaParts : List Char → List (List Char)
  | [] => [[]]
  | c :: cs =>
    match commaParts cs with
    | [] => [[c]]
    | p :: ps => if c == ',' then [] :: p :: ps else (c :: p) :: ps

/-- The operands of a line, none when one of them is no number. -/
def numbers? : List (List Char) → Option (List Int)
  | [] => some []
  | p :: ps => do
    let n ← integer? (trimBlanks p)
    let ns ← numbers? ps
    some (n :: ns)

/-- Naturals, none when one of the numbers is negative. -/
def naturals? : List Int → Option (List Nat)
  | [] => some []
  | n :: ns => do
    let rest ← naturals? ns
    if 0 ≤ n then some (n.toNat :: rest) else none

/-- The line a mnemonic and its operands make (R71, R72). The times of FEED, FRAME and RCFRAME may be negative, and FEED may
have no bytes (DESIGN CHOICE, log 11). -/
def lineOf (mnemonic : List Char) (ns : List Int) : Option AsmLine :=
  if mnemonic = ['I', 'N', 'I', 'T'] then (if ns = [] then some .init else none)
  else if mnemonic = ['C', 'O', 'N', 'N'] then (if ns = [] then some .conn else none)
  else if mnemonic = ['G', 'E', 'T', 'C', 'H'] then
    match ns with
    | [index] => some (.getch index)
    | _ => none
  else if mnemonic = ['B', 'Y', 'T', 'E'] then
    match naturals? ns with
    | some [b, t] => some (.byte b t)
    | _ => none
  else if mnemonic = ['F', 'E', 'E', 'D'] then
    match ns with
    | t0 :: dt :: rest => (naturals? rest).map fun bytes => .feed t0 dt bytes
    | _ => none
  else if mnemonic = ['F', 'R', 'A', 'M', 'E'] then
    match ns with
    | address :: frameType :: t0 :: dt :: rest =>
      match naturals? (address :: frameType :: rest) with
      | some (a :: y :: payload) => some (.frame a y t0 dt payload)
      | _ => none
    | _ => none
  else if mnemonic = ['R', 'C', 'F', 'R', 'A', 'M', 'E'] then
    match ns with
    | address :: t0 :: dt :: rest =>
      match naturals? (address :: rest) with
      | some (a :: raws) => some (.rcframe a t0 dt raws)
      | _ => none
    | _ => none
  else none

/-- The agent a line's label names, and the text after it: `SRC:` the ByteSource, `CON:` the Consumer (R71). A line with no
label is the ByteSource's, the one agent of a single-agent program (R140). -/
def labelled : List Char → Agent × List Char
  | 'S' :: 'R' :: 'C' :: ':' :: cs => (.byteSource, cs)
  | 'C' :: 'O' :: 'N' :: ':' :: cs => (.consumer, cs)
  | cs => (.byteSource, cs)

/-- One line of text: its agent, and its command unless it is blank or only a comment. None when it is ill formed. -/
def readLine (cs : List Char) : Option (Agent × Option AsmLine) :=
  let (a, rest) := labelled (trimBlanks (cs.takeWhile (· != ';')))
  let body := trimBlanks rest
  let mnemonic := body.takeWhile fun c => !isBlank c
  let operands := trimBlanks (body.dropWhile fun c => !isBlank c)
  if body = [] then some (a, none)
  else if operands = [] then (lineOf mnemonic []).map fun l => (a, some l)
  else do
    let ns ← numbers? (commaParts operands)
    let l ← lineOf mnemonic ns
    some (a, some l)

/-- A program text: the words of the ByteSource's lines and of the Consumer's, each in order (R71). -/
def readProgram : List (List Char) → Option (List CmdWord × List CmdWord)
  | [] => some ([], [])
  | l :: ls => do
    let (a, line) ← readLine l
    let ws ← assembleAll line.toList
    let (src, con) ← readProgram ls
    match a with
    | .byteSource => some (ws ++ src, con)
    | .consumer => some (src, ws ++ con)

end Sys2Proof.Machine
end

