-- ==== Sys2Proof/Safety.lean ====
section
/-! DEFINITION. What counts as a successful run and as a well-kept state, in the terms claims use (60_exceptions.md R143,
10_state.md R31, 43_channel_decode.md R125). -/

namespace Sys2Proof.Machine

open Sys2Proof

/-- The run may end successfully here (R143): both sequences are used up, nothing is pending, no fault is recorded and
nothing was refused. -/
def State.EndsSuccessfully (s : State) : Prop :=
  s.hasCommand .byteSource = false ∧ s.hasCommand .consumer = false ∧ s.pending = noWrites ∧
    s.faults = FaultSet.empty ∧ s.refused = false

/-- Invariant (b) of R31, once INIT has completed: a frame of three bytes or more is shorter than its length says. -/
def State.FrameUnfinished (s : State) : Prop :=
  s.initDone = true → 3 ≤ s.pos.val → s.pos.val < s.buf[1].toNat + 2

/-- Once INIT has completed, channels 8 to 15 hold 0 (R125). -/
def State.UpperChannelsZero (s : State) : Prop :=
  s.initDone = true → ∀ i : Fin Config.nChannels, Config.nDecoded ≤ i.val → s.ch[i.val]'i.isLt = 0

/-- While slot writes are pending, a PROCESS_BYTE of the ByteSource is in progress and the reassembler is idle (R28, R95). -/
def State.PendingHasSource (s : State) : Prop :=
  s.pending ≠ noWrites → s.initDone = true ∧ s.pos.val = 0 ∧ s.hasCommand .byteSource = true

/-- Each agent's position is in its sequence or just past its end (R27). -/
def State.PositionsInProgram (s : State) : Prop :=
  s.src.position ≤ s.src.program.length ∧ s.con.position ≤ s.con.program.length

/-- What every step keeps, between commands. -/
structure State.Inv (s : State) : Prop where
  frameUnfinished : s.FrameUnfinished
  upperChannelsZero : s.UpperChannelsZero
  pendingHasSource : s.PendingHasSource
  positionsInProgram : s.PositionsInProgram
  notAtDispatch : s.atDispatch = none

/-- PROCESS_BYTE has its own effect here: the ByteSource issues it and INIT has completed (R131, R140). -/
def State.ByteReady (s : State) : Prop := s.issuer = .byteSource ∧ s.initDone = true

/-- The frame in progress takes a later byte here: it has begun, there is room, and at `t` it is not too old (R90, R92). -/
def State.TakesByteAt (s : State) (t : U32) : Prop :=
  s.ByteReady ∧ s.pos.val ≠ 0 ∧ s.pos.val < Config.frameSizeMax ∧ t - s.start ≤ Config.frameTimeoutUs

/-- The state with `b` stored at `buf[pos]` and `pos` one further (R92). -/
def State.withByte (s : State) (b : U8) (h : s.pos.val < Config.frameSizeMax) : State :=
  { s with buf := s.buf.set s.pos.val b h, pos := ⟨s.pos.val + 1, Nat.succ_lt_succ h⟩ }

/-- The buffer holds a complete frame (R93, R94). -/
def State.IsComplete (s : State) : Prop := 2 < s.pos.val ∧ s.buf[1].toNat + 2 ≤ s.pos.val

/-- The complete frame passes its CRC check (R111, R112): the CRC of `buf[2 .. total-2]` equals `buf[total-1]`. -/
def State.CrcGood (s : State) : Prop :=
  s.buf[s.buf[1].toNat + 1]? = some (crc8 ((s.buf.toList.drop 2).take (s.buf[1].toNat - 1)))

/-- The frame is for dispatch to the RC-channels row (R120). -/
def State.IsRcFrame (s : State) : Prop := s.buf[0] = Config.fcAddr ∧ s.buf[2] = Config.typeRcChannelsPacked

/-- All recorded times moved by `d`, modulo 2^32 (R101). -/
def State.shiftTime (s : State) (d : U32) : State := { s with start := s.start + d, lastValid := s.lastValid + d }

/-- The state after `k` steps, when each of them answers a next state. -/
def State.runs (s : State) (k : Nat) (t : State) : Prop := core.run k s = .next t

end Sys2Proof.Machine
end

