-- ==== Sys2Proof/Certificates/Slice0/Obligations.lean ====
section
/-! DEFINITION. The statements for the provers, from the numbered rules of spec/. -/

open Sys2Proof Sys2Proof.Machine

/-! ### Power-on and INIT -/

/-- R150: what power-on leaves, for every value of what the spec leaves open there. -/
def Obligations.PowerOnState : Prop :=
  ∀ p : Config.PowerOn,
    (State.powerOn p).start = 0 ∧ (State.powerOn p).buf = p.buffer ∧ (State.powerOn p).pending = noWrites ∧
      (State.powerOn p).initDone = false ∧ (State.powerOn p).faults = FaultSet.empty ∧
      (State.powerOn p).refused = false

/-- R151 and the pseudocode of R81: INIT completes, sets `pos`, `ch` and `initDone` and leaves the rest; afterwards the
reassembler is IDLE and every channel reads 0. -/
def Obligations.InitResetsReassemblerAndChannels : Prop :=
  ∀ s : State, s.pending = noWrites → ∃ t : State,
    exec .init s = .next t ∧ t = { s with pos := 0, ch := Vector.replicate Config.nChannels 0, initDone := true } ∧
      t.reassembler = .idle ∧ ∀ index, t.channelAt index = 0

/-- R142, R131: INIT while writes are pending records InitOverlap and does nothing else, and no turn of the ByteSource meets a
pending write. That the fault is recorded in a next state that runs on is the model's reading (log 3). -/
def Obligations.InitOverlapRecordsFault : Prop :=
  ∀ s : State, s.pending ≠ noWrites →
    exec .init s = .next { s with faults := { s.faults with initOverlap := true } } ∧ s.turn ≠ some .byteSource

/-- R131, R80: before the first INIT every other command records NotInitialized and does nothing else. That the fault is
recorded in a next state that runs on is the model's reading (log 3). -/
def Obligations.CommandsBeforeInitRecordFault : Prop :=
  ∀ s : State, s.initDone = false →
    (s.issuer = .byteSource → ∀ b t, exec (.processByte b t) s =
      .next { s with faults := { s.faults with notInitialized := true } }) ∧
    (∀ index, exec (.getChannel index) s = .next { s with faults := { s.faults with notInitialized := true } }) ∧
    exec .isConnected s = .next { s with faults := { s.faults with notInitialized := true } }

/-- R50: two INITs in a row leave the same state as one. -/
def Obligations.InitIdempotent : Prop :=
  ∀ s t : State, exec .init s = .next t → exec .init t = .next t

/-- R150, R153: no observation depends on the registers power-on leaves unspecified. Two power-ons with the same buffer
and policy, given the same programs and interleaving, go step by step to states with the same responses, positions,
faults and marks, and once INIT has completed to states that differ in `lastValid` at most. -/
def Obligations.UnspecifiedPowerOnUnobservable : Prop :=
  ∀ (p q : Config.PowerOn) (src con : List CmdWord) (schedule : List Turn) (k : Nat) (t : State),
    p.buffer = q.buffer → p.zeroLenPolicy = q.zeroLenPolicy →
    ((State.powerOn p).load src con schedule).runs k t →
    ∃ u : State, ((State.powerOn q).load src con schedule).runs k u ∧
      u.src = t.src ∧ u.con = t.con ∧ u.faults = t.faults ∧ u.refused = t.refused ∧ u.initDone = t.initDone ∧
      (t.initDone = true → { u with lastValid := t.lastValid } = t)

/-- R25: no command reads `lastValid`. Whatever it holds, a run goes the same way in every other field. -/
def Obligations.LastValidUnobservable : Prop :=
  ∀ (s t : State) (v : U32) (k : Nat), s.runs k t →
    ∃ u : State, State.runs { s with lastValid := v } k u ∧ { u with lastValid := t.lastValid } = t

/-- R33: the value of `start` while `pos = 0` affects no later observation. The next byte taken gives the same state whatever
`start` was, and every run goes the same way in every other field: either the states are equal, or no byte has been taken,
so `pos` is still 0 and `start` the only difference. -/
def Obligations.StartUnobservableWhenIdle : Prop :=
  (∀ (s : State) (b : U8) (t x : U32), s.ByteReady → s.pos.val = 0 →
    exec (.processByte b t) { s with start := x } = exec (.processByte b t) s) ∧
  ∀ (s t : State) (x : U32) (k : Nat), s.pos.val = 0 → s.runs k t →
    ∃ u : State, State.runs { s with start := x } k u ∧
      (u = t ∨ t.pos.val = 0 ∧ t.start = s.start ∧ u = { t with start := x })

/-! ### Encoding -/

/-- Decoding the encoding of a well-formed instruction gives it back: commands (R61 to R63) and headers (R69). -/
def Obligations.DecodeEncode : Prop := ∀ i : Instr, i.wellFormed = true → decode (encode i) = .ok i

/-- Each word and each header has one meaning: what the decoder accepts encodes back to it, and is well formed. -/
def Obligations.EncodeDecode : Prop :=
  ∀ (e : Encoded) (i : Instr), decode e = .ok i → encode i = e ∧ i.wellFormed = true

/-- R65: a word is refused exactly when a reserved field is not zero, and then it matches no row of the table. Every other
word matches exactly one command row, the row of its instruction. -/
def Obligations.CommandDecodeIsTotal : Prop :=
  ∀ w : CmdWord,
    (decodeCommand w = .error .reservedBits ↔
      (w.extractLsb' 2 6 ≠ 0 ∨ (w.extractLsb' 0 2 ≠ 0b01 ∧ w.extractLsb' 8 8 ≠ 0) ∨
        ((w.extractLsb' 0 2 = 0b00 ∨ w.extractLsb' 0 2 = 0b11) ∧ w.extractLsb' 16 32 ≠ 0))) ∧
    (decodeCommand w = .error .reservedBits ∧ matchingCommandRows w = [] ∨
      ∃ i, decodeCommand w = .ok i ∧ matchingCommandRows w = [i.mnemonic])

/-- R69: a header decodes to the first row of the dispatch map that matches it. -/
def Obligations.HeaderTakesFirstMatchingRow : Prop :=
  ∀ h : Header, firstHeaderRow h = some (decodeHeader h).mnemonic

/-- R73: the encoding examples. -/
def Obligations.EncodingExamples : Prop :=
  decodeCommand 0x000000000000 = .ok .init ∧
    decodeCommand 0x000003E8C801 = .ok (.processByte 0xC8 1000) ∧
    decodeCommand 0xFFFFFF00AD01 = .ok (.processByte 0xAD 0xFFFFFF00) ∧
    decodeCommand 0x000000000002 = .ok (.getChannel 0) ∧
    decodeCommand 0x000000100002 = .ok (.getChannel 16) ∧
    decodeCommand 0xFFFFFFFF0002 = .ok (.getChannel (BitVec.ofInt 32 (-1))) ∧
    decodeCommand 0x000000000003 = .ok .isConnected ∧
    decodeCommand 0x000000000004 = .error .reservedBits ∧
    decodeCommand 0x000000000102 = .error .reservedBits ∧
    decodeHeader 0xC81816 = .frameRcChannelsPackedFc 0x18 ∧
    decodeHeader 0xC80C14 = .frameLinkStatistics 0xC8 0x0C ∧
    decodeHeader 0xEE1816 = .frameOther 0xEE 0x18 0x16

/-! ### The step -/

/-- A step in which an agent has its turn runs the instruction its next word decodes to, as that agent, and completes the
command. `finish` moves the position (log 8). -/
def Obligations.StepRunsDecodedCommand : Prop :=
  ∀ (s : State) (w : CmdWord) (i : Instr), s.atDispatch = none → decodeCommand w = .ok i →
    (s.turn = some .byteSource → s.src.program[s.src.position]? = some w →
      step s = mapNext (·.finish .byteSource)
        (exec i { s with schedule := s.schedule.tail, issuer := .byteSource })) ∧
    (s.turn = some .consumer → s.con.program[s.con.position]? = some w →
      step s = mapNext (·.finish .consumer) (exec i { s with schedule := s.schedule.tail, issuer := .consumer }))

/-- A step of a state with a frame at dispatch runs the instruction its header decodes to, and completes the PROCESS_BYTE
it belongs to. The dispatch point is the model's own (log 5). -/
def Obligations.StepRunsFrameAtDispatch : Prop :=
  ∀ (s : State) (t : U32), s.atDispatch = some t →
    step s = mapNext (·.finish .byteSource) (exec (decodeHeader (s.buf[0] ++ s.buf[1] ++ s.buf[2])) s)

/-- R65, R80: a step on a refused word sets the mark, moves the agent's position past the word and does nothing else to
the block. That the position moves is the model's reading (log 3). -/
def Obligations.RefusedWordSetsMarkOnly : Prop :=
  ∀ (s : State) (w : CmdWord), s.atDispatch = none → decodeCommand w = .error .reservedBits →
    (s.turn = some .byteSource → s.src.program[s.src.position]? = some w →
      step s = .next { s with schedule := s.schedule.tail, issuer := .byteSource, refused := true,
                              src := { s.src with position := s.src.position + 1 } }) ∧
    (s.turn = some .consumer → s.con.program[s.con.position]? = some w →
      step s = .next { s with schedule := s.schedule.tail, issuer := .consumer, refused := true,
                              con := { s.con with position := s.con.position + 1 } })

/-- R141: the environment's choice is taken when it is enabled: the ByteSource with no write pending and a command left,
the Consumer with a command left, a Retire of a pending slot. -/
def Obligations.EveryEnabledTurnCanBeTaken : Prop :=
  ∀ (s : State) (rest : List Turn),
    (s.pending = noWrites → s.src.position < s.src.program.length →
      State.turn { s with schedule := .byteSource :: rest } = some .byteSource) ∧
    (s.con.position < s.con.program.length →
      State.turn { s with schedule := .consumer :: rest } = some .consumer) ∧
    (∀ i : Fin Config.nDecoded, s.pending[i.val] ≠ none →
      State.turn { s with schedule := .retire i :: rest } = some (.retire i))

/-- R99, R146: no terminal state. Every state has a next state. -/
def Obligations.StepNeverStops : Prop := ∀ s : State, ∃ t, step s = .next t

/-- R28: a Retire step performs one pending write, takes it out of the set, and completes the ByteSource's command when it
was the last. -/
def Obligations.RetireStepPerformsOneWrite : Prop :=
  ∀ (s : State) (i : Fin Config.nDecoded) (v : U16), s.atDispatch = none → s.turn = some (.retire i) → s.pending[i.val] = some v →
    ∃ t, step s = .next t ∧ t.ch = s.ch.set i.val v ∧ t.pending = s.pending.set i.val none ∧
      t.src = (if s.pending.set i.val none = noWrites then { s.src with position := s.src.position + 1 } else s.src) ∧
      t = { s with ch := t.ch, pending := t.pending, src := t.src, schedule := s.schedule.tail }

/-- R48, R49, R52: while a frame's writes are pending, a step leaves the reassembler, `lastValid` and the ByteSource's
responses alone, and each slot keeps its old value or takes the one pending for it. -/
def Obligations.PendingWritesVisibleSlotBySlot : Prop :=
  ∀ s t : State, s.atDispatch = none → s.pending ≠ noWrites → step s = .next t →
    t.buf = s.buf ∧ t.pos = s.pos ∧ t.start = s.start ∧ t.lastValid = s.lastValid ∧
      t.src.responses = s.src.responses ∧
      (∀ i : Fin Config.nDecoded, t.ch[i.val] = s.ch[i.val] ∨ s.pending[i.val] = some t.ch[i.val]) ∧
      (∀ (i : Nat) (hi : i < Config.nChannels), Config.nDecoded ≤ i → t.ch[i]'hi = s.ch[i]'hi)

/-- R141: `pending` always drains. Whatever the environment's choices are, within eight steps more than they are many there
is a moment with nothing pending, at which each slot holds the value that was pending for it. With no choices left the
Consumer is as before then too, since Retire goes first, which is the model's choice (log 6). -/
def Obligations.PendingAlwaysDrains : Prop :=
  ∀ s : State, s.atDispatch = none → ∃ (k : Nat) (t : State), k ≤ s.schedule.length + 8 ∧ s.runs k t ∧
    t.pending = noWrites ∧
    (∀ i : Fin Config.nDecoded, t.ch[i.val] = (s.pending[i.val]).getD s.ch[i.val]) ∧
    (∀ (i : Nat) (hi : i < Config.nChannels), Config.nDecoded ≤ i → t.ch[i]'hi = s.ch[i]'hi) ∧
    t.src.responses = s.src.responses ∧ (s.schedule = [] → t.con = s.con)

/-! ### Invariants -/

/-- The invariant holds at every power-on, whatever programs are loaded. -/
def Obligations.InvariantAtPowerOn : Prop :=
  (∀ p : Config.PowerOn, (State.powerOn p).Inv) ∧
    ∀ (p : Config.PowerOn) (src con : List CmdWord) (schedule : List Turn),
      ((State.powerOn p).load src con schedule).Inv

/-- R31, R104, R125, R28, R27: every step keeps the invariant. -/
def Obligations.StepKeepsInvariant : Prop := ∀ s t : State, s.Inv → step s = .next t → t.Inv

/-- R97, R98: the stall comes of a length field of 63 or more. In it a byte changes no state unless the frame has timed
out, and then it is the first byte of a new frame. INIT also ends it. -/
def Obligations.StallDropsBytesUntilTimeout : Prop :=
  ∀ (s : State) (b : U8) (t : U32), s.Inv → s.ByteReady → s.reassembler = .stalled →
    63 ≤ s.buf[1].toNat ∧
    (t - s.start ≤ Config.frameTimeoutUs → exec (.processByte b t) s = .next s) ∧
    (Config.frameTimeoutUs < t - s.start →
      exec (.processByte b t) s = .next { s with buf := s.buf.set 0 b, pos := 1, start := t }) ∧
    ∃ u, exec .init s = .next u ∧ u.reassembler = .idle

/-- R29, R131, R132, R103: recorded faults, the refusal mark and `initDone` are never cleared, and no step writes the
policy. -/
def Obligations.MarksNeverCleared : Prop :=
  ∀ s t : State, step s = .next t →
    (∀ f, s.faults.has f = true → t.faults.has f = true) ∧ (s.refused = true → t.refused = true) ∧
      (s.initDone = true → t.initDone = true) ∧ t.zeroLenPolicy = s.zeroLenPolicy

/-- R42: INIT and Retire are the only writers of `ch`. -/
def Obligations.ChannelsWrittenByInitOrRetire : Prop :=
  ∀ s t : State, step s = .next t →
    t.ch = s.ch ∨
      (∃ a w, (s.turn = some .byteSource ∧ a = Agent.byteSource ∨ s.turn = some .consumer ∧ a = Agent.consumer) ∧
        s.fetch a = some w ∧ decodeCommand w = .ok .init ∧ s.pending = noWrites ∧ t.ch = Vector.replicate Config.nChannels 0) ∨
      (∃ (i : Fin Config.nDecoded) (v : U16), s.turn = some (.retire i) ∧ s.pending[i.val] = some v ∧ t.ch = s.ch.set i.val v)

/-- R27: an agent's sequence is never rewritten and its position never jumps: a step moves it by one or not at all, and
adds one response or none. -/
def Obligations.PositionsNeverJump : Prop :=
  ∀ (s t : State) (a : Agent), step s = .next t →
    (t.agent a).program = (s.agent a).program ∧
      ((t.agent a).position = (s.agent a).position ∨ (t.agent a).position = (s.agent a).position + 1) ∧
      ((t.agent a).responses = (s.agent a).responses ∨
        ∃ v, (t.agent a).responses = (s.agent a).responses ++ [v])

/-! ### PROCESS_BYTE: reassembly -/

/-- R90 to R92, R134: a byte more than 1750 µs after the frame's first, even at a full buffer, discards the frame and
starts a new one stamped with its own time. -/
def Obligations.TimeoutStartsNewFrame : Prop :=
  ∀ (s : State) (b : U8) (t : U32), s.ByteReady → Config.frameTimeoutUs < t - s.start →
    exec (.processByte b t) s = .next { s with buf := s.buf.set 0 b, pos := 1, start := t }

/-- R91, R92, R102: with `pos = 0` the byte starts a frame whatever `start` was. -/
def Obligations.IdleByteStartsFrame : Prop :=
  ∀ (s : State) (b : U8) (t : U32), s.ByteReady → s.pos.val = 0 →
    exec (.processByte b t) s = .next { s with buf := s.buf.set 0 b, pos := 1, start := t }

/-- R92 to R94, R99: a byte in time that leaves the frame unfinished is stored at `buf[pos]`, and `pos` advances. -/
def Obligations.UnfinishedFrameTakesByte : Prop :=
  ∀ (s : State) (b : U8) (t : U32) (h : s.pos.val < Config.frameSizeMax), s.TakesByteAt t →
    ¬ (s.withByte b h).IsComplete →
    exec (.processByte b t) s =
      .next { s with buf := s.buf.set s.pos.val b h, pos := ⟨s.pos.val + 1, Nat.succ_lt_succ h⟩ }

/-- R95, R112: a completed frame whose CRC does not match is discarded: `pos` becomes 0 and nothing else changes but the
stored byte. -/
def Obligations.CrcMismatchDiscardsFrame : Prop :=
  ∀ (s : State) (b : U8) (t : U32) (h : s.pos.val < Config.frameSizeMax), s.TakesByteAt t →
    (s.withByte b h).IsComplete → ¬ (s.withByte b h).CrcGood →
    (s.zeroLenPolicy = .literal ∨ (s.withByte b h).buf[1] ≠ 0) →
    exec (.processByte b t) s = .next { s with buf := s.buf.set s.pos.val b h, pos := 0 }

/-- R128: a frame that passes its CRC check and is not an RC-channels frame for 0xC8 changes nothing beyond R95. -/
def Obligations.OtherFrameIgnored : Prop :=
  ∀ (s : State) (b : U8) (t : U32) (h : s.pos.val < Config.frameSizeMax), s.TakesByteAt t → s.atDispatch = none →
    (s.withByte b h).IsComplete → (s.withByte b h).CrcGood → ¬ (s.withByte b h).IsRcFrame →
    (s.zeroLenPolicy = .literal ∨ (s.withByte b h).buf[1] ≠ 0) →
    exec (.processByte b t) s = .next { s with buf := s.buf.set s.pos.val b h, pos := 0 }

/-- R120, R121, R126, R127: a frame of type 0x16 for 0xC8 that passes its CRC check, whatever its length, makes the eight
slot writes pending and sets `lastValid` to the completing byte's time. -/
def Obligations.RcFrameDecoded : Prop :=
  ∀ (s : State) (b : U8) (t : U32) (h : s.pos.val < Config.frameSizeMax), s.TakesByteAt t → s.atDispatch = none →
    (s.withByte b h).IsComplete → (s.withByte b h).CrcGood → (s.withByte b h).IsRcFrame →
    (s.zeroLenPolicy = .literal ∨ (s.withByte b h).buf[1] ≠ 0) →
    exec (.processByte b t) s = .next { s with
      buf := s.buf.set s.pos.val b h, pos := 0, lastValid := t,
      pending := Vector.ofFn fun i : Fin Config.nDecoded => some (rescale (unpack (s.buf.set s.pos.val b h) i.val)) }

/-- R102, R126: under the policy `literal` the third byte of a frame with length field 0 always passes the CRC check, so the
frame is decoded from the bytes in the buffer when its header is `C8 00 16`, and ignored otherwise. -/
def Obligations.ZeroLengthFrameLiteral : Prop :=
  ∀ (s : State) (b : U8) (t : U32), s.ByteReady → s.atDispatch = none → s.zeroLenPolicy = .literal →
    s.pos.val = 2 → s.buf[1] = 0 → t - s.start ≤ Config.frameTimeoutUs →
    exec (.processByte b t) s = .next (
      if s.buf[0] = Config.fcAddr ∧ b = Config.typeRcChannelsPacked then
        { s with buf := s.buf.set 2 b, pos := 0, lastValid := t,
                 pending := Vector.ofFn fun i : Fin Config.nDecoded => some (rescale (unpack s.buf i.val)) }
      else { s with buf := s.buf.set 2 b, pos := 0 })

/-- R103, R133: under the policy `fault` that completion records ZeroLengthFrame after `pos <- 0` and does nothing more.
That the fault is recorded in a next state that runs on is the model's reading (log 3). -/
def Obligations.ZeroLengthFrameFault : Prop :=
  ∀ (s : State) (b : U8) (t : U32), s.ByteReady → s.zeroLenPolicy = .fault →
    s.pos.val = 2 → s.buf[1] = 0 → t - s.start ≤ Config.frameTimeoutUs →
    exec (.processByte b t) s = .next { s with
      buf := s.buf.set 2 b, pos := 0, faults := { s.faults with zeroLengthFrame := true } }

/-- R102: the third byte of a frame with length field 1 completes it, and nothing is ever decoded. -/
def Obligations.LengthOneFrameNeverDecodes : Prop :=
  ∀ (s : State) (b : U8) (t : U32), s.ByteReady → s.atDispatch = none →
    s.pos.val = 2 → s.buf[1] = 1 → t - s.start ≤ Config.frameTimeoutUs →
    exec (.processByte b t) s = .next { s with buf := s.buf.set 2 b, pos := 0 }

/-- R96, R69: on a CRC match PROCESS_BYTE goes on as the instruction the frame's header decodes to, at the hand-off with
`pos = 0` and the byte's time. That the rows are instructions of their own is the model's reading (log 5). -/
def Obligations.ProcessByteHandsOffToHeaderRow : Prop :=
  ∀ (s : State) (b : U8) (t : U32) (h : s.pos.val < Config.frameSizeMax), s.TakesByteAt t →
    (s.withByte b h).IsComplete → (s.withByte b h).CrcGood →
    (s.zeroLenPolicy = .literal ∨ (s.withByte b h).buf[1] ≠ 0) →
    exec (.processByte b t) s =
      exec (decodeHeader (headerOfFields (s.withByte b h).buf[0] (s.withByte b h).buf[1] (s.withByte b h).buf[2]))
        { s.withByte b h with pos := 0, atDispatch := some t }

/-- R21, R23, R41, R42, R105: what PROCESS_BYTE leaves unchanged. Only the buffer byte at the position the timeout check
leaves is written, with this byte, and none at a full buffer; `start` changes only when that position is 0. -/
def Obligations.ProcessByteFrame : Prop :=
  ∀ (s : State) (b : U8) (t : U32), s.ByteReady → ∃ u, exec (.processByte b t) s = .next u ∧
    (∀ j : Fin Config.frameSizeMax, u.buf[j.val] = if j.val = (s.checkTimeout t).pos.val then b else s.buf[j.val]) ∧
    u.start = (if (s.checkTimeout t).pos.val = 0 then t else s.start) ∧
    u.ch = s.ch ∧ u.initDone = s.initDone ∧ u.refused = s.refused ∧ u.zeroLenPolicy = s.zeroLenPolicy ∧
    u.faults.notInitialized = s.faults.notInitialized ∧ u.faults.initOverlap = s.faults.initOverlap ∧
    u.src = s.src ∧ u.con = s.con ∧ u.issuer = s.issuer ∧ u.schedule = s.schedule

/-- R100, R101: only elapsed time modulo 2^32 matters. Moving every time by the same amount moves the recorded times by it
and changes nothing else. -/
def Obligations.OnlyElapsedTimeMatters : Prop :=
  ∀ (s : State) (b : U8) (t d : U32),
    exec (.processByte b (t + d)) (s.shiftTime d) = mapNext (·.shiftTime d) (exec (.processByte b t) s)

/-- R127: PROCESS_BYTE sets `lastValid` to its own time on a decoded frame, with the eight writes, and no other instruction
but the decode at dispatch writes it. -/
def Obligations.LastValidWrittenOnlyByDecode : Prop :=
  ∀ (i : Instr) (s u : State), exec i s = .next u → u.lastValid ≠ s.lastValid →
    u.pending = decodedWrites u.buf ∧
      ((∃ b, i = .processByte b u.lastValid) ∨ (∃ len, i = .frameRcChannelsPackedFc len ∧ s.atDispatch = some u.lastValid))

/-- R132, R134: the Consumer's PROCESS_BYTE is refused, before any other check, and does nothing but set the mark. That it is
refused when it is issued, and not when its program is loaded, is the model's reading (log 4), and so is the next state that
runs on (log 3). -/
def Obligations.ConsumerProcessByteRefused : Prop :=
  ∀ (s : State) (b : U8) (t : U32), s.issuer = .consumer →
    exec (.processByte b t) s = .next { s with refused := true }

/-- R111, R161: the checked range of a completed frame has `total - 3` bytes, and at most 61. -/
def Obligations.CheckedRangeAtMost61Bytes : Prop :=
  ∀ s : State, s.IsComplete → s.checkedRange.length = s.buf[1].toNat + 2 - 3 ∧ s.checkedRange.length ≤ 61

/-! ### The CRC -/

/-- R113: the table form. The table holds the CRC of each single byte, and walking it computes the CRC. -/
def Obligations.CrcTableForm : Prop :=
  crc8Table.length = 256 ∧ (∀ x : U8, crc8Table[x.toNat]? = some (crc8 [x])) ∧
    ∀ seq : List U8, crc8 seq = crc8Walk crc8Table seq

/-- R114 (b): the CRC is linear over sequences of equal length. -/
def Obligations.CrcLinear : Prop :=
  ∀ a b : List U8, a.length = b.length → crc8 (List.zipWith (· ^^^ ·) a b) = crc8 a ^^^ crc8 b

/-- R114 (c): flipping exactly one bit of a sequence always changes its CRC. -/
def Obligations.CrcDetectsSingleBitFlip : Prop :=
  ∀ (pre post : List U8) (x : U8) (k : Nat), k < 8 →
    crc8 (pre ++ (x ^^^ BitVec.twoPow 8 k) :: post) ≠ crc8 (pre ++ x :: post)

/-- R110, R115: the examples of the rule and the check value of the catalogue name. -/
def Obligations.CrcExamples : Prop :=
  crc8 [] = 0x00 ∧ crc8 [0x00] = 0x00 ∧ crc8 [0x01] = 0xD5 ∧ crc8 [0x16] = 0xD3 ∧
    crc8 [0x31, 0x32, 0x33, 0x34, 0x35, 0x36, 0x37, 0x38, 0x39] = 0xBC

/-- R114: flipping any single bit of a type or payload byte of a frame that would pass its CRC check makes the completing
PROCESS_BYTE discard it, with no channel write and `lastValid` unchanged. -/
def Obligations.FlippedBitDiscardsFrame : Prop :=
  ∀ (s : State) (b : U8) (t : U32) (h : s.pos.val < Config.frameSizeMax) (j k : Nat) (hj : j < s.pos.val),
    s.TakesByteAt t → 2 ≤ j → k < 8 → s.buf[1].toNat + 2 = s.pos.val + 1 → (s.withByte b h).CrcGood →
    exec (.processByte b t) { s with buf := s.buf.set j (s.buf[j] ^^^ BitVec.twoPow 8 k) } =
      .next { s with buf := (s.buf.set j (s.buf[j] ^^^ BitVec.twoPow 8 k)).set s.pos.val b h, pos := 0 }

/-! ### Channels -/

/-- R122: the equivalent form of Unpack, over the three bytes from `j` up. -/
def Obligations.UnpackThreeByteForm : Prop :=
  ∀ (buf : Vector U8 Config.frameSizeMax) (i : Nat) (hi : i < 16),
    unpack buf i =
      ((((buf[3 + 11 * i / 8]'(show _ < 64 by omega)).setWidth 24 |||
          (buf[3 + 11 * i / 8 + 1]'(show _ < 64 by omega)).setWidth 24 <<< 8 |||
          (buf[3 + 11 * i / 8 + 2]'(show _ < 64 by omega)).setWidth 24 <<< 16) >>> (11 * i % 8)) &&& 0x7FF).setWidth 11

/-- R124: the bit layout of the eight decoded channels. -/
def Obligations.UnpackLayout : Prop :=
  ∀ buf : Vector U8 Config.frameSizeMax,
    unpack buf 0 = buf[4].extractLsb 2 0 ++ buf[3] ∧
    unpack buf 1 = buf[5].extractLsb 5 0 ++ buf[4].extractLsb 7 3 ∧
    unpack buf 2 = buf[7].extractLsb 0 0 ++ buf[6] ++ buf[5].extractLsb 7 6 ∧
    unpack buf 3 = buf[8].extractLsb 3 0 ++ buf[7].extractLsb 7 1 ∧
    unpack buf 4 = buf[9].extractLsb 6 0 ++ buf[8].extractLsb 7 4 ∧
    unpack buf 5 = buf[11].extractLsb 1 0 ++ buf[10] ++ buf[9].extractLsb 7 7 ∧
    unpack buf 6 = buf[12].extractLsb 4 0 ++ buf[11].extractLsb 7 2 ∧
    unpack buf 7 = buf[13] ++ buf[12].extractLsb 7 5

/-- R72, R122: the packing of RCFRAME is the inverse of the unpacking, for all sixteen fields. -/
def Obligations.UnpackInvertsPacking : Prop :=
  ∀ (raws : List Raw) (buf : Vector U8 Config.frameSizeMax), raws.length = Config.nChannels →
    (∀ j : Fin 22, some (buf[3 + j.val]'(show _ < 64 by omega)) = (rcPayload raws)[j.val]?) →
    ∀ i : Fin Config.nChannels, raws[i.val]? = some (unpack buf i.val)

/-- R123: Rescale rounds the exact value `r * 0.62477120195241 + 881` to the nearest integer, never at a tie, and gives a
value in 881..2160. The cheaper form of the rule is the same function. -/
def Obligations.RescaleRoundsToNearest : Prop :=
  ∀ r : Raw,
    2 * (r.toNat * 62477120195241 + 881 * 100000000000000) < 100000000000000 * (2 * (rescale r).toNat + 1) ∧
    100000000000000 * (2 * (rescale r).toNat - 1) < 2 * (r.toNat * 62477120195241 + 881 * 100000000000000) ∧
    881 ≤ (rescale r).toNat ∧ (rescale r).toNat ≤ 2160 ∧
    rescale r = BitVec.ofNat 16 (881 + (2048 * r.toNat + 1639) / 3278)

/-! ### Queries -/

/-- R83, R64: after INIT, GET_CHANNEL answers the issuing agent with the slot its signed index names, or with 0 for an index
outside 0..15, and changes nothing else. -/
def Obligations.GetChannelAnswers : Prop :=
  ∀ (s : State) (index : U32), s.initDone = true →
    ∃ v, exec (.getChannel index) s = .next (s.setAgent s.issuer
        { s.agent s.issuer with responses := (s.agent s.issuer).responses ++ [v] }) ∧
      (∀ i : Fin Config.nChannels, index.toInt = (i.val : Int) → v = s.ch[i.val]) ∧
      (index.toInt < 0 ∨ 15 < index.toInt → v = 0)

/-- R84, R64: the word 3 is IS_CONNECTED. Before the first INIT it records NotInitialized and does nothing else; after it, in
every state, it answers the issuing agent 0x0001 and changes nothing else. That the fault is recorded in a next state that runs on is the
model's reading (log 3). -/
def Obligations.IsConnectedAnswersOne : Prop :=
  decodeCommand 0x000000000003 = .ok .isConnected ∧
  ∀ s : State,
    (s.initDone = false →
      exec .isConnected s = .next { s with faults := { s.faults with notInitialized := true } }) ∧
    (s.initDone = true → exec .isConnected s = .next (s.setAgent s.issuer
      { s.agent s.issuer with responses := (s.agent s.issuer).responses ++ [0x0001] }))

/-! ### The frame rows -/

/-- R121, R127 at the hand-off: FRAME_RC_CHANNELS_PACKED_FC makes the eight writes pending, sets `lastValid` to the
completing byte's time and changes nothing else of the block. With no frame at the hand-off, which is the model's own case
(log 5), it changes nothing. -/
def Obligations.RcChannelsRowDecodes : Prop :=
  ∀ (s : State) (len : U8),
    (∀ t : U32, s.atDispatch = some t →
      exec (.frameRcChannelsPackedFc len) s = .next { s with
        atDispatch := none, lastValid := t,
        pending := Vector.ofFn fun i : Fin Config.nDecoded => some (rescale (unpack s.buf i.val)) }) ∧
    (s.atDispatch = none → exec (.frameRcChannelsPackedFc len) s = .next s)

/-- R128 at the hand-off: the two other rows change nothing of the block. The dispatch point is the model's own (log 5). -/
def Obligations.OtherRowsIgnored : Prop :=
  ∀ (s : State) (a len y : U8),
    exec (.frameLinkStatistics a len) s = .next { s with atDispatch := none } ∧
      exec (.frameOther a len y) s = .next { s with atDispatch := none }

/-! ### Programs -/

/-- R72: FEED is the PROCESS_BYTE commands of its bytes, one for each byte and no more, the k-th stamped `t0 + k*dt` modulo
2^32. -/
def Obligations.FeedExpandsToProcessBytes : Prop :=
  ∀ (t0 dt : U32) (bytes : List U8), (feedWords t0 dt bytes).length = bytes.length ∧
    ∀ (k : Nat) (b : U8), bytes[k]? = some b →
      ((feedWords t0 dt bytes)[k]?).map decodeCommand = some (.ok (.processByte b (t0 + BitVec.ofNat 32 k * dt)))

/-- R66, R67, R72: the bytes of FRAME, once in the buffer, are a complete frame of their own length that passes its CRC
check. -/
def Obligations.FrameBytesPassCrc : Prop :=
  ∀ (address frameType : U8) (payload : List U8) (s : State), payload.length ≤ 60 → s.pos.val = payload.length + 4 →
    (∀ (j : Nat) (x : U8), (frameBytes address frameType payload)[j]? = some x → s.buf[j]? = some x) →
    s.total = payload.length + 4 ∧ s.IsComplete ∧ s.CrcGood

/-- R68, R72, R121, R122 (the round trip of the source's V-EX-2, at the completing byte): when the first 25 bytes of an
RCFRAME for 0xC8 are in the buffer, its CRC byte makes `Rescale` of the first eight raw values pending, one for each slot,
leaves the reassembler idle and stamps `lastValid`. -/
def Obligations.RcFrameRoundTrip : Prop :=
  ∀ (raws : List Raw) (s : State) (b : U8) (t : U32), raws.length = Config.nChannels → s.TakesByteAt t → s.pos.val = 25 →
    (∀ (j : Nat) (x : U8), j < 25 → (frameBytes Config.fcAddr Config.typeRcChannelsPacked (rcPayload raws))[j]? = some x → s.buf[j]? = some x) →
    (frameBytes Config.fcAddr Config.typeRcChannelsPacked (rcPayload raws))[25]? = some b →
    ∃ u, exec (.processByte b t) s = .next u ∧ u.reassembler = .idle ∧ u.lastValid = t ∧
      ∀ i : Fin Config.nDecoded, (raws[i.val]?).map rescale = u.pending[i.val]

/-! ### Parameters -/

/-- R6: the block's parameters have the values of the table, `SCALE_K` as a decimal fraction. The other statements name the
constants. -/
def Obligations.ParametersHaveTheSpecValues : Prop :=
  Config.frameSizeMax = 64 ∧ Config.frameTimeoutUs = 1750 ∧ Config.fcAddr = 0xC8 ∧ Config.typeRcChannelsPacked = 0x16 ∧
    Config.typeLinkStatistics = 0x14 ∧ Config.crcPoly = 0xD5 ∧ Config.crcInit = 0x00 ∧ Config.nChannels = 16 ∧
    Config.nDecoded = 8 ∧ Config.chBits = 11 ∧ Config.scaleNumerator = 62477120195241 ∧
    Config.scaleDenominator = 10 ^ 14 ∧ Config.scaleOffset = 881 ∧ Config.tsWidth = 32 ∧ Config.chWidth = 16 ∧
    Config.byteWidth = 8
end

