-- ==== Sys2Proof/Laws/Decode.lean ====
section
/-! SUPPORT. What the field functions of Decode.lean say of a word built from its fields, and of any word. -/

namespace Sys2Proof

/-- Bit `i` of a command word by field (R61). -/
theorem getLsbD_cmdOfFields (op : BitVec 2) (rsv : BitVec 6) (data : BitVec 8) (arg : BitVec 32) (i : Nat) :
    (cmdOfFields op rsv data arg).getLsbD i =
      if i < 2 then op.getLsbD i else if i < 8 then rsv.getLsbD (i - 2)
      else if i < 16 then data.getLsbD (i - 8) else arg.getLsbD (i - 16) := by
  change (((arg ++ data : BitVec (32 + 8)) ++ rsv : BitVec (32 + 8 + 6)) ++ op : BitVec (32 + 8 + 6 + 2)).getLsbD i = _
  rw [BitVec.getLsbD_append, BitVec.getLsbD_append, BitVec.getLsbD_append]
  repeat' split
  all_goals first | omega | rfl

/-- Bit `i` of a frame header by byte (R69). -/
theorem getLsbD_headerOfFields (a l t : BitVec 8) (i : Nat) :
    (headerOfFields a l t).getLsbD i =
      if i < 8 then t.getLsbD i else if i < 16 then l.getLsbD (i - 8) else a.getLsbD (i - 16) := by
  change ((a ++ l : BitVec (8 + 8)) ++ t : BitVec (8 + 8 + 8)).getLsbD i = _
  rw [BitVec.getLsbD_append, BitVec.getLsbD_append]
  repeat' split
  all_goals first | omega | rfl

@[simp] theorem cmdOp_ofFields (op : BitVec 2) (rsv : BitVec 6) (data : BitVec 8) (arg : BitVec 32) :
    cmdOp (cmdOfFields op rsv data arg) = op := by
  apply BitVec.eq_of_getLsbD_eq
  intro i hi
  simp [cmdOp, getLsbD_cmdOfFields, hi]

@[simp] theorem cmdRsv_ofFields (op : BitVec 2) (rsv : BitVec 6) (data : BitVec 8) (arg : BitVec 32) :
    cmdRsv (cmdOfFields op rsv data arg) = rsv := by
  apply BitVec.eq_of_getLsbD_eq
  intro i hi
  simp [cmdRsv, getLsbD_cmdOfFields, hi, show ¬ 2 + i < 2 by omega, show 2 + i < 8 by omega]

@[simp] theorem cmdData_ofFields (op : BitVec 2) (rsv : BitVec 6) (data : BitVec 8) (arg : BitVec 32) :
    cmdData (cmdOfFields op rsv data arg) = data := by
  apply BitVec.eq_of_getLsbD_eq
  intro i (hi : i < 8)
  simp [cmdData, getLsbD_cmdOfFields, hi, show ¬ 8 + i < 2 by omega, show 8 + i < 16 by omega]

@[simp] theorem cmdArg_ofFields (op : BitVec 2) (rsv : BitVec 6) (data : BitVec 8) (arg : BitVec 32) :
    cmdArg (cmdOfFields op rsv data arg) = arg := by
  apply BitVec.eq_of_getLsbD_eq
  intro i (hi : i < 32)
  simp [cmdArg, getLsbD_cmdOfFields, hi, show ¬ 16 + i < 2 by omega, show ¬ 16 + i < 8 by omega]

/-- A command word is its four fields (R61). -/
theorem cmdOfFields_fields (w : CmdWord) : cmdOfFields (cmdOp w) (cmdRsv w) (cmdData w) (cmdArg w) = w := by
  apply BitVec.eq_of_getLsbD_eq
  intro i hi
  rw [getLsbD_cmdOfFields]
  simp only [cmdOp, cmdRsv, cmdData, cmdArg, BitVec.getLsbD_extractLsb']
  split
  · simp_all
  split
  · simp [show i - 2 < 6 by omega, show 2 + (i - 2) = i by omega]
  split
  · simp [show i - 8 < 8 by omega, show 8 + (i - 8) = i by omega]
  · simp [show i - 16 < 32 by omega, show 16 + (i - 16) = i by omega]

@[simp] theorem headerAddress_ofFields (a l t : BitVec 8) : headerAddress (headerOfFields a l t) = a := by
  apply BitVec.eq_of_getLsbD_eq
  intro i (hi : i < 8)
  simp [headerAddress, getLsbD_headerOfFields, hi, show ¬ 16 + i < 8 by omega]

@[simp] theorem headerLength_ofFields (a l t : BitVec 8) : headerLength (headerOfFields a l t) = l := by
  apply BitVec.eq_of_getLsbD_eq
  intro i (hi : i < 8)
  simp [headerLength, getLsbD_headerOfFields, hi, show 8 + i < 16 by omega]

@[simp] theorem headerType_ofFields (a l t : BitVec 8) : headerType (headerOfFields a l t) = t := by
  apply BitVec.eq_of_getLsbD_eq
  intro i (hi : i < 8)
  simp [headerType, getLsbD_headerOfFields, hi]

/-- A header is its three bytes (R69). -/
theorem headerOfFields_fields (h : Header) : headerOfFields (headerAddress h) (headerLength h) (headerType h) = h := by
  apply BitVec.eq_of_getLsbD_eq
  intro i hi
  rw [getLsbD_headerOfFields]
  simp only [headerAddress, headerLength, headerType, BitVec.getLsbD_extractLsb']
  split
  · simp_all
  split
  · simp [show i - 8 < 8 by omega, show 8 + (i - 8) = i by omega]
  · simp [show i - 16 < 8 by omega, show 16 + (i - 16) = i by omega]

/-- The header of the frame in a state's buffer, byte by byte, decodes by R120's condition. -/
theorem decodeHeader_ofFields (a l t : BitVec 8) :
    decodeHeader (headerOfFields a l t) =
      if isRcHeader a t then .frameRcChannelsPackedFc l
      else if isLinkStatisticsHeader t then .frameLinkStatistics a l else .frameOther a l t := by
  simp [decodeHeader]

end Sys2Proof
end

