-- ==== Sys2Proof/Laws/State.lean ====
section
/-! SUPPORT. One lemma for each field under each update of Machine/Ops.lean, true by unfolding the update. -/

namespace Sys2Proof.Machine

open Sys2Proof

variable (s : State)

@[simp] theorem setPos_buf (p : Fin (Config.frameSizeMax + 1)) : (s.setPos p).buf = s.buf := rfl
@[simp] theorem setPos_pos (p : Fin (Config.frameSizeMax + 1)) : (s.setPos p).pos = p := rfl
@[simp] theorem setPos_start (p : Fin (Config.frameSizeMax + 1)) : (s.setPos p).start = s.start := rfl
@[simp] theorem setPos_ch (p : Fin (Config.frameSizeMax + 1)) : (s.setPos p).ch = s.ch := rfl
@[simp] theorem setPos_lastValid (p : Fin (Config.frameSizeMax + 1)) : (s.setPos p).lastValid = s.lastValid := rfl
@[simp] theorem setPos_pending (p : Fin (Config.frameSizeMax + 1)) : (s.setPos p).pending = s.pending := rfl
@[simp] theorem setPos_initDone (p : Fin (Config.frameSizeMax + 1)) : (s.setPos p).initDone = s.initDone := rfl
@[simp] theorem setPos_faults (p : Fin (Config.frameSizeMax + 1)) : (s.setPos p).faults = s.faults := rfl
@[simp] theorem setPos_refused (p : Fin (Config.frameSizeMax + 1)) : (s.setPos p).refused = s.refused := rfl
@[simp] theorem setPos_zeroLenPolicy (p : Fin (Config.frameSizeMax + 1)) : (s.setPos p).zeroLenPolicy = s.zeroLenPolicy := rfl
@[simp] theorem setPos_src (p : Fin (Config.frameSizeMax + 1)) : (s.setPos p).src = s.src := rfl
@[simp] theorem setPos_con (p : Fin (Config.frameSizeMax + 1)) : (s.setPos p).con = s.con := rfl
@[simp] theorem setPos_issuer (p : Fin (Config.frameSizeMax + 1)) : (s.setPos p).issuer = s.issuer := rfl
@[simp] theorem setPos_atDispatch (p : Fin (Config.frameSizeMax + 1)) : (s.setPos p).atDispatch = s.atDispatch := rfl
@[simp] theorem setPos_schedule (p : Fin (Config.frameSizeMax + 1)) : (s.setPos p).schedule = s.schedule := rfl

@[simp] theorem setStart_buf (t : U32) : (s.setStart t).buf = s.buf := rfl
@[simp] theorem setStart_pos (t : U32) : (s.setStart t).pos = s.pos := rfl
@[simp] theorem setStart_start (t : U32) : (s.setStart t).start = t := rfl
@[simp] theorem setStart_ch (t : U32) : (s.setStart t).ch = s.ch := rfl
@[simp] theorem setStart_lastValid (t : U32) : (s.setStart t).lastValid = s.lastValid := rfl
@[simp] theorem setStart_pending (t : U32) : (s.setStart t).pending = s.pending := rfl
@[simp] theorem setStart_initDone (t : U32) : (s.setStart t).initDone = s.initDone := rfl
@[simp] theorem setStart_faults (t : U32) : (s.setStart t).faults = s.faults := rfl
@[simp] theorem setStart_refused (t : U32) : (s.setStart t).refused = s.refused := rfl
@[simp] theorem setStart_zeroLenPolicy (t : U32) : (s.setStart t).zeroLenPolicy = s.zeroLenPolicy := rfl
@[simp] theorem setStart_src (t : U32) : (s.setStart t).src = s.src := rfl
@[simp] theorem setStart_con (t : U32) : (s.setStart t).con = s.con := rfl
@[simp] theorem setStart_issuer (t : U32) : (s.setStart t).issuer = s.issuer := rfl
@[simp] theorem setStart_atDispatch (t : U32) : (s.setStart t).atDispatch = s.atDispatch := rfl
@[simp] theorem setStart_schedule (t : U32) : (s.setStart t).schedule = s.schedule := rfl

@[simp] theorem setByte_buf (i : Fin Config.frameSizeMax) (b : U8) : (s.setByte i b).buf = s.buf.set i.val b i.isLt := rfl
@[simp] theorem setByte_pos (i : Fin Config.frameSizeMax) (b : U8) : (s.setByte i b).pos = s.pos := rfl
@[simp] theorem setByte_start (i : Fin Config.frameSizeMax) (b : U8) : (s.setByte i b).start = s.start := rfl
@[simp] theorem setByte_ch (i : Fin Config.frameSizeMax) (b : U8) : (s.setByte i b).ch = s.ch := rfl
@[simp] theorem setByte_lastValid (i : Fin Config.frameSizeMax) (b : U8) : (s.setByte i b).lastValid = s.lastValid := rfl
@[simp] theorem setByte_pending (i : Fin Config.frameSizeMax) (b : U8) : (s.setByte i b).pending = s.pending := rfl
@[simp] theorem setByte_initDone (i : Fin Config.frameSizeMax) (b : U8) : (s.setByte i b).initDone = s.initDone := rfl
@[simp] theorem setByte_faults (i : Fin Config.frameSizeMax) (b : U8) : (s.setByte i b).faults = s.faults := rfl
@[simp] theorem setByte_refused (i : Fin Config.frameSizeMax) (b : U8) : (s.setByte i b).refused = s.refused := rfl
@[simp] theorem setByte_zeroLenPolicy (i : Fin Config.frameSizeMax) (b : U8) : (s.setByte i b).zeroLenPolicy = s.zeroLenPolicy := rfl
@[simp] theorem setByte_src (i : Fin Config.frameSizeMax) (b : U8) : (s.setByte i b).src = s.src := rfl
@[simp] theorem setByte_con (i : Fin Config.frameSizeMax) (b : U8) : (s.setByte i b).con = s.con := rfl
@[simp] theorem setByte_issuer (i : Fin Config.frameSizeMax) (b : U8) : (s.setByte i b).issuer = s.issuer := rfl
@[simp] theorem setByte_atDispatch (i : Fin Config.frameSizeMax) (b : U8) : (s.setByte i b).atDispatch = s.atDispatch := rfl
@[simp] theorem setByte_schedule (i : Fin Config.frameSizeMax) (b : U8) : (s.setByte i b).schedule = s.schedule := rfl

@[simp] theorem zeroChannels_buf : (s.zeroChannels).buf = s.buf := rfl
@[simp] theorem zeroChannels_pos : (s.zeroChannels).pos = s.pos := rfl
@[simp] theorem zeroChannels_start : (s.zeroChannels).start = s.start := rfl
@[simp] theorem zeroChannels_ch : (s.zeroChannels).ch = Vector.replicate Config.nChannels 0 := rfl
@[simp] theorem zeroChannels_lastValid : (s.zeroChannels).lastValid = s.lastValid := rfl
@[simp] theorem zeroChannels_pending : (s.zeroChannels).pending = s.pending := rfl
@[simp] theorem zeroChannels_initDone : (s.zeroChannels).initDone = s.initDone := rfl
@[simp] theorem zeroChannels_faults : (s.zeroChannels).faults = s.faults := rfl
@[simp] theorem zeroChannels_refused : (s.zeroChannels).refused = s.refused := rfl
@[simp] theorem zeroChannels_zeroLenPolicy : (s.zeroChannels).zeroLenPolicy = s.zeroLenPolicy := rfl
@[simp] theorem zeroChannels_src : (s.zeroChannels).src = s.src := rfl
@[simp] theorem zeroChannels_con : (s.zeroChannels).con = s.con := rfl
@[simp] theorem zeroChannels_issuer : (s.zeroChannels).issuer = s.issuer := rfl
@[simp] theorem zeroChannels_atDispatch : (s.zeroChannels).atDispatch = s.atDispatch := rfl
@[simp] theorem zeroChannels_schedule : (s.zeroChannels).schedule = s.schedule := rfl

@[simp] theorem setChannel_buf (i : Fin Config.nDecoded) (v : U16) : (s.setChannel i v).buf = s.buf := rfl
@[simp] theorem setChannel_pos (i : Fin Config.nDecoded) (v : U16) : (s.setChannel i v).pos = s.pos := rfl
@[simp] theorem setChannel_start (i : Fin Config.nDecoded) (v : U16) : (s.setChannel i v).start = s.start := rfl
@[simp] theorem setChannel_ch (i : Fin Config.nDecoded) (v : U16) : (s.setChannel i v).ch = s.ch.set i.val v (Nat.lt_of_lt_of_le i.isLt (by decide)) := rfl
@[simp] theorem setChannel_lastValid (i : Fin Config.nDecoded) (v : U16) : (s.setChannel i v).lastValid = s.lastValid := rfl
@[simp] theorem setChannel_pending (i : Fin Config.nDecoded) (v : U16) : (s.setChannel i v).pending = s.pending := rfl
@[simp] theorem setChannel_initDone (i : Fin Config.nDecoded) (v : U16) : (s.setChannel i v).initDone = s.initDone := rfl
@[simp] theorem setChannel_faults (i : Fin Config.nDecoded) (v : U16) : (s.setChannel i v).faults = s.faults := rfl
@[simp] theorem setChannel_refused (i : Fin Config.nDecoded) (v : U16) : (s.setChannel i v).refused = s.refused := rfl
@[simp] theorem setChannel_zeroLenPolicy (i : Fin Config.nDecoded) (v : U16) : (s.setChannel i v).zeroLenPolicy = s.zeroLenPolicy := rfl
@[simp] theorem setChannel_src (i : Fin Config.nDecoded) (v : U16) : (s.setChannel i v).src = s.src := rfl
@[simp] theorem setChannel_con (i : Fin Config.nDecoded) (v : U16) : (s.setChannel i v).con = s.con := rfl
@[simp] theorem setChannel_issuer (i : Fin Config.nDecoded) (v : U16) : (s.setChannel i v).issuer = s.issuer := rfl
@[simp] theorem setChannel_atDispatch (i : Fin Config.nDecoded) (v : U16) : (s.setChannel i v).atDispatch = s.atDispatch := rfl
@[simp] theorem setChannel_schedule (i : Fin Config.nDecoded) (v : U16) : (s.setChannel i v).schedule = s.schedule := rfl

@[simp] theorem setLastValid_buf (t : U32) : (s.setLastValid t).buf = s.buf := rfl
@[simp] theorem setLastValid_pos (t : U32) : (s.setLastValid t).pos = s.pos := rfl
@[simp] theorem setLastValid_start (t : U32) : (s.setLastValid t).start = s.start := rfl
@[simp] theorem setLastValid_ch (t : U32) : (s.setLastValid t).ch = s.ch := rfl
@[simp] theorem setLastValid_lastValid (t : U32) : (s.setLastValid t).lastValid = t := rfl
@[simp] theorem setLastValid_pending (t : U32) : (s.setLastValid t).pending = s.pending := rfl
@[simp] theorem setLastValid_initDone (t : U32) : (s.setLastValid t).initDone = s.initDone := rfl
@[simp] theorem setLastValid_faults (t : U32) : (s.setLastValid t).faults = s.faults := rfl
@[simp] theorem setLastValid_refused (t : U32) : (s.setLastValid t).refused = s.refused := rfl
@[simp] theorem setLastValid_zeroLenPolicy (t : U32) : (s.setLastValid t).zeroLenPolicy = s.zeroLenPolicy := rfl
@[simp] theorem setLastValid_src (t : U32) : (s.setLastValid t).src = s.src := rfl
@[simp] theorem setLastValid_con (t : U32) : (s.setLastValid t).con = s.con := rfl
@[simp] theorem setLastValid_issuer (t : U32) : (s.setLastValid t).issuer = s.issuer := rfl
@[simp] theorem setLastValid_atDispatch (t : U32) : (s.setLastValid t).atDispatch = s.atDispatch := rfl
@[simp] theorem setLastValid_schedule (t : U32) : (s.setLastValid t).schedule = s.schedule := rfl

@[simp] theorem setPending_buf (p : Pending) : (s.setPending p).buf = s.buf := rfl
@[simp] theorem setPending_pos (p : Pending) : (s.setPending p).pos = s.pos := rfl
@[simp] theorem setPending_start (p : Pending) : (s.setPending p).start = s.start := rfl
@[simp] theorem setPending_ch (p : Pending) : (s.setPending p).ch = s.ch := rfl
@[simp] theorem setPending_lastValid (p : Pending) : (s.setPending p).lastValid = s.lastValid := rfl
@[simp] theorem setPending_pending (p : Pending) : (s.setPending p).pending = p := rfl
@[simp] theorem setPending_initDone (p : Pending) : (s.setPending p).initDone = s.initDone := rfl
@[simp] theorem setPending_faults (p : Pending) : (s.setPending p).faults = s.faults := rfl
@[simp] theorem setPending_refused (p : Pending) : (s.setPending p).refused = s.refused := rfl
@[simp] theorem setPending_zeroLenPolicy (p : Pending) : (s.setPending p).zeroLenPolicy = s.zeroLenPolicy := rfl
@[simp] theorem setPending_src (p : Pending) : (s.setPending p).src = s.src := rfl
@[simp] theorem setPending_con (p : Pending) : (s.setPending p).con = s.con := rfl
@[simp] theorem setPending_issuer (p : Pending) : (s.setPending p).issuer = s.issuer := rfl
@[simp] theorem setPending_atDispatch (p : Pending) : (s.setPending p).atDispatch = s.atDispatch := rfl
@[simp] theorem setPending_schedule (p : Pending) : (s.setPending p).schedule = s.schedule := rfl

@[simp] theorem setInitDone_buf : (s.setInitDone).buf = s.buf := rfl
@[simp] theorem setInitDone_pos : (s.setInitDone).pos = s.pos := rfl
@[simp] theorem setInitDone_start : (s.setInitDone).start = s.start := rfl
@[simp] theorem setInitDone_ch : (s.setInitDone).ch = s.ch := rfl
@[simp] theorem setInitDone_lastValid : (s.setInitDone).lastValid = s.lastValid := rfl
@[simp] theorem setInitDone_pending : (s.setInitDone).pending = s.pending := rfl
@[simp] theorem setInitDone_initDone : (s.setInitDone).initDone = true := rfl
@[simp] theorem setInitDone_faults : (s.setInitDone).faults = s.faults := rfl
@[simp] theorem setInitDone_refused : (s.setInitDone).refused = s.refused := rfl
@[simp] theorem setInitDone_zeroLenPolicy : (s.setInitDone).zeroLenPolicy = s.zeroLenPolicy := rfl
@[simp] theorem setInitDone_src : (s.setInitDone).src = s.src := rfl
@[simp] theorem setInitDone_con : (s.setInitDone).con = s.con := rfl
@[simp] theorem setInitDone_issuer : (s.setInitDone).issuer = s.issuer := rfl
@[simp] theorem setInitDone_atDispatch : (s.setInitDone).atDispatch = s.atDispatch := rfl
@[simp] theorem setInitDone_schedule : (s.setInitDone).schedule = s.schedule := rfl

@[simp] theorem setAtDispatch_buf (d : Option U32) : (s.setAtDispatch d).buf = s.buf := rfl
@[simp] theorem setAtDispatch_pos (d : Option U32) : (s.setAtDispatch d).pos = s.pos := rfl
@[simp] theorem setAtDispatch_start (d : Option U32) : (s.setAtDispatch d).start = s.start := rfl
@[simp] theorem setAtDispatch_ch (d : Option U32) : (s.setAtDispatch d).ch = s.ch := rfl
@[simp] theorem setAtDispatch_lastValid (d : Option U32) : (s.setAtDispatch d).lastValid = s.lastValid := rfl
@[simp] theorem setAtDispatch_pending (d : Option U32) : (s.setAtDispatch d).pending = s.pending := rfl
@[simp] theorem setAtDispatch_initDone (d : Option U32) : (s.setAtDispatch d).initDone = s.initDone := rfl
@[simp] theorem setAtDispatch_faults (d : Option U32) : (s.setAtDispatch d).faults = s.faults := rfl
@[simp] theorem setAtDispatch_refused (d : Option U32) : (s.setAtDispatch d).refused = s.refused := rfl
@[simp] theorem setAtDispatch_zeroLenPolicy (d : Option U32) : (s.setAtDispatch d).zeroLenPolicy = s.zeroLenPolicy := rfl
@[simp] theorem setAtDispatch_src (d : Option U32) : (s.setAtDispatch d).src = s.src := rfl
@[simp] theorem setAtDispatch_con (d : Option U32) : (s.setAtDispatch d).con = s.con := rfl
@[simp] theorem setAtDispatch_issuer (d : Option U32) : (s.setAtDispatch d).issuer = s.issuer := rfl
@[simp] theorem setAtDispatch_atDispatch (d : Option U32) : (s.setAtDispatch d).atDispatch = d := rfl
@[simp] theorem setAtDispatch_schedule (d : Option U32) : (s.setAtDispatch d).schedule = s.schedule := rfl

@[simp] theorem setIssuer_buf (a : Agent) : (s.setIssuer a).buf = s.buf := rfl
@[simp] theorem setIssuer_pos (a : Agent) : (s.setIssuer a).pos = s.pos := rfl
@[simp] theorem setIssuer_start (a : Agent) : (s.setIssuer a).start = s.start := rfl
@[simp] theorem setIssuer_ch (a : Agent) : (s.setIssuer a).ch = s.ch := rfl
@[simp] theorem setIssuer_lastValid (a : Agent) : (s.setIssuer a).lastValid = s.lastValid := rfl
@[simp] theorem setIssuer_pending (a : Agent) : (s.setIssuer a).pending = s.pending := rfl
@[simp] theorem setIssuer_initDone (a : Agent) : (s.setIssuer a).initDone = s.initDone := rfl
@[simp] theorem setIssuer_faults (a : Agent) : (s.setIssuer a).faults = s.faults := rfl
@[simp] theorem setIssuer_refused (a : Agent) : (s.setIssuer a).refused = s.refused := rfl
@[simp] theorem setIssuer_zeroLenPolicy (a : Agent) : (s.setIssuer a).zeroLenPolicy = s.zeroLenPolicy := rfl
@[simp] theorem setIssuer_src (a : Agent) : (s.setIssuer a).src = s.src := rfl
@[simp] theorem setIssuer_con (a : Agent) : (s.setIssuer a).con = s.con := rfl
@[simp] theorem setIssuer_issuer (a : Agent) : (s.setIssuer a).issuer = a := rfl
@[simp] theorem setIssuer_atDispatch (a : Agent) : (s.setIssuer a).atDispatch = s.atDispatch := rfl
@[simp] theorem setIssuer_schedule (a : Agent) : (s.setIssuer a).schedule = s.schedule := rfl

@[simp] theorem setSchedule_buf (ts : List Turn) : (s.setSchedule ts).buf = s.buf := rfl
@[simp] theorem setSchedule_pos (ts : List Turn) : (s.setSchedule ts).pos = s.pos := rfl
@[simp] theorem setSchedule_start (ts : List Turn) : (s.setSchedule ts).start = s.start := rfl
@[simp] theorem setSchedule_ch (ts : List Turn) : (s.setSchedule ts).ch = s.ch := rfl
@[simp] theorem setSchedule_lastValid (ts : List Turn) : (s.setSchedule ts).lastValid = s.lastValid := rfl
@[simp] theorem setSchedule_pending (ts : List Turn) : (s.setSchedule ts).pending = s.pending := rfl
@[simp] theorem setSchedule_initDone (ts : List Turn) : (s.setSchedule ts).initDone = s.initDone := rfl
@[simp] theorem setSchedule_faults (ts : List Turn) : (s.setSchedule ts).faults = s.faults := rfl
@[simp] theorem setSchedule_refused (ts : List Turn) : (s.setSchedule ts).refused = s.refused := rfl
@[simp] theorem setSchedule_zeroLenPolicy (ts : List Turn) : (s.setSchedule ts).zeroLenPolicy = s.zeroLenPolicy := rfl
@[simp] theorem setSchedule_src (ts : List Turn) : (s.setSchedule ts).src = s.src := rfl
@[simp] theorem setSchedule_con (ts : List Turn) : (s.setSchedule ts).con = s.con := rfl
@[simp] theorem setSchedule_issuer (ts : List Turn) : (s.setSchedule ts).issuer = s.issuer := rfl
@[simp] theorem setSchedule_atDispatch (ts : List Turn) : (s.setSchedule ts).atDispatch = s.atDispatch := rfl
@[simp] theorem setSchedule_schedule (ts : List Turn) : (s.setSchedule ts).schedule = ts := rfl

@[simp] theorem raise_buf (f : Fault) : (s.raise f).buf = s.buf := rfl
@[simp] theorem raise_pos (f : Fault) : (s.raise f).pos = s.pos := rfl
@[simp] theorem raise_start (f : Fault) : (s.raise f).start = s.start := rfl
@[simp] theorem raise_ch (f : Fault) : (s.raise f).ch = s.ch := rfl
@[simp] theorem raise_lastValid (f : Fault) : (s.raise f).lastValid = s.lastValid := rfl
@[simp] theorem raise_pending (f : Fault) : (s.raise f).pending = s.pending := rfl
@[simp] theorem raise_initDone (f : Fault) : (s.raise f).initDone = s.initDone := rfl
@[simp] theorem raise_faults (f : Fault) : (s.raise f).faults = s.faults.record f := rfl
@[simp] theorem raise_refused (f : Fault) : (s.raise f).refused = s.refused := rfl
@[simp] theorem raise_zeroLenPolicy (f : Fault) : (s.raise f).zeroLenPolicy = s.zeroLenPolicy := rfl
@[simp] theorem raise_src (f : Fault) : (s.raise f).src = s.src := rfl
@[simp] theorem raise_con (f : Fault) : (s.raise f).con = s.con := rfl
@[simp] theorem raise_issuer (f : Fault) : (s.raise f).issuer = s.issuer := rfl
@[simp] theorem raise_atDispatch (f : Fault) : (s.raise f).atDispatch = s.atDispatch := rfl
@[simp] theorem raise_schedule (f : Fault) : (s.raise f).schedule = s.schedule := rfl

@[simp] theorem refuse_buf (r : Refusal) : (s.refuse r).buf = s.buf := rfl
@[simp] theorem refuse_pos (r : Refusal) : (s.refuse r).pos = s.pos := rfl
@[simp] theorem refuse_start (r : Refusal) : (s.refuse r).start = s.start := rfl
@[simp] theorem refuse_ch (r : Refusal) : (s.refuse r).ch = s.ch := rfl
@[simp] theorem refuse_lastValid (r : Refusal) : (s.refuse r).lastValid = s.lastValid := rfl
@[simp] theorem refuse_pending (r : Refusal) : (s.refuse r).pending = s.pending := rfl
@[simp] theorem refuse_initDone (r : Refusal) : (s.refuse r).initDone = s.initDone := rfl
@[simp] theorem refuse_faults (r : Refusal) : (s.refuse r).faults = s.faults := rfl
@[simp] theorem refuse_refused (r : Refusal) : (s.refuse r).refused = true := rfl
@[simp] theorem refuse_zeroLenPolicy (r : Refusal) : (s.refuse r).zeroLenPolicy = s.zeroLenPolicy := rfl
@[simp] theorem refuse_src (r : Refusal) : (s.refuse r).src = s.src := rfl
@[simp] theorem refuse_con (r : Refusal) : (s.refuse r).con = s.con := rfl
@[simp] theorem refuse_issuer (r : Refusal) : (s.refuse r).issuer = s.issuer := rfl
@[simp] theorem refuse_atDispatch (r : Refusal) : (s.refuse r).atDispatch = s.atDispatch := rfl
@[simp] theorem refuse_schedule (r : Refusal) : (s.refuse r).schedule = s.schedule := rfl

@[simp] theorem setAgent_buf (a : Agent) (x : AgentState) : (s.setAgent a x).buf = s.buf := by cases a <;> rfl
@[simp] theorem setAgent_pos (a : Agent) (x : AgentState) : (s.setAgent a x).pos = s.pos := by cases a <;> rfl
@[simp] theorem setAgent_start (a : Agent) (x : AgentState) : (s.setAgent a x).start = s.start := by cases a <;> rfl
@[simp] theorem setAgent_ch (a : Agent) (x : AgentState) : (s.setAgent a x).ch = s.ch := by cases a <;> rfl
@[simp] theorem setAgent_lastValid (a : Agent) (x : AgentState) : (s.setAgent a x).lastValid = s.lastValid := by cases a <;> rfl
@[simp] theorem setAgent_pending (a : Agent) (x : AgentState) : (s.setAgent a x).pending = s.pending := by cases a <;> rfl
@[simp] theorem setAgent_initDone (a : Agent) (x : AgentState) : (s.setAgent a x).initDone = s.initDone := by cases a <;> rfl
@[simp] theorem setAgent_faults (a : Agent) (x : AgentState) : (s.setAgent a x).faults = s.faults := by cases a <;> rfl
@[simp] theorem setAgent_refused (a : Agent) (x : AgentState) : (s.setAgent a x).refused = s.refused := by cases a <;> rfl
@[simp] theorem setAgent_zeroLenPolicy (a : Agent) (x : AgentState) : (s.setAgent a x).zeroLenPolicy = s.zeroLenPolicy := by cases a <;> rfl
@[simp] theorem setAgent_issuer (a : Agent) (x : AgentState) : (s.setAgent a x).issuer = s.issuer := by cases a <;> rfl
@[simp] theorem setAgent_atDispatch (a : Agent) (x : AgentState) : (s.setAgent a x).atDispatch = s.atDispatch := by cases a <;> rfl
@[simp] theorem setAgent_schedule (a : Agent) (x : AgentState) : (s.setAgent a x).schedule = s.schedule := by cases a <;> rfl
@[simp] theorem setAgent_source_src (x : AgentState) : (s.setAgent .byteSource x).src = x := rfl
@[simp] theorem setAgent_source_con (x : AgentState) : (s.setAgent .byteSource x).con = s.con := rfl
@[simp] theorem setAgent_consumer_src (x : AgentState) : (s.setAgent .consumer x).src = s.src := rfl
@[simp] theorem setAgent_consumer_con (x : AgentState) : (s.setAgent .consumer x).con = x := rfl

@[simp] theorem respond_buf (v : U16) : (s.respond v).buf = s.buf := by simp [State.respond]
@[simp] theorem respond_pos (v : U16) : (s.respond v).pos = s.pos := by simp [State.respond]
@[simp] theorem respond_start (v : U16) : (s.respond v).start = s.start := by simp [State.respond]
@[simp] theorem respond_ch (v : U16) : (s.respond v).ch = s.ch := by simp [State.respond]
@[simp] theorem respond_lastValid (v : U16) : (s.respond v).lastValid = s.lastValid := by simp [State.respond]
@[simp] theorem respond_pending (v : U16) : (s.respond v).pending = s.pending := by simp [State.respond]
@[simp] theorem respond_initDone (v : U16) : (s.respond v).initDone = s.initDone := by simp [State.respond]
@[simp] theorem respond_faults (v : U16) : (s.respond v).faults = s.faults := by simp [State.respond]
@[simp] theorem respond_refused (v : U16) : (s.respond v).refused = s.refused := by simp [State.respond]
@[simp] theorem respond_zeroLenPolicy (v : U16) : (s.respond v).zeroLenPolicy = s.zeroLenPolicy := by simp [State.respond]
@[simp] theorem respond_issuer (v : U16) : (s.respond v).issuer = s.issuer := by simp [State.respond]
@[simp] theorem respond_atDispatch (v : U16) : (s.respond v).atDispatch = s.atDispatch := by simp [State.respond]
@[simp] theorem respond_schedule (v : U16) : (s.respond v).schedule = s.schedule := by simp [State.respond]

@[simp] theorem advance_buf (a : Agent) : (s.advance a).buf = s.buf := by simp [State.advance]
@[simp] theorem advance_pos (a : Agent) : (s.advance a).pos = s.pos := by simp [State.advance]
@[simp] theorem advance_start (a : Agent) : (s.advance a).start = s.start := by simp [State.advance]
@[simp] theorem advance_ch (a : Agent) : (s.advance a).ch = s.ch := by simp [State.advance]
@[simp] theorem advance_lastValid (a : Agent) : (s.advance a).lastValid = s.lastValid := by simp [State.advance]
@[simp] theorem advance_pending (a : Agent) : (s.advance a).pending = s.pending := by simp [State.advance]
@[simp] theorem advance_initDone (a : Agent) : (s.advance a).initDone = s.initDone := by simp [State.advance]
@[simp] theorem advance_faults (a : Agent) : (s.advance a).faults = s.faults := by simp [State.advance]
@[simp] theorem advance_refused (a : Agent) : (s.advance a).refused = s.refused := by simp [State.advance]
@[simp] theorem advance_zeroLenPolicy (a : Agent) : (s.advance a).zeroLenPolicy = s.zeroLenPolicy := by simp [State.advance]
@[simp] theorem advance_issuer (a : Agent) : (s.advance a).issuer = s.issuer := by simp [State.advance]
@[simp] theorem advance_atDispatch (a : Agent) : (s.advance a).atDispatch = s.atDispatch := by simp [State.advance]
@[simp] theorem advance_schedule (a : Agent) : (s.advance a).schedule = s.schedule := by simp [State.advance]

@[simp] theorem agent_source : s.agent .byteSource = s.src := rfl
@[simp] theorem agent_consumer : s.agent .consumer = s.con := rfl
@[simp] theorem agent_setAgent (a : Agent) (x : AgentState) : (s.setAgent a x).agent a = x := by cases a <;> rfl

/-- A recorded fault is in the set (R131). -/
@[simp] theorem record_has_self (fs : FaultSet) (f : Fault) : (fs.record f).has f = true := by cases f <;> rfl

/-- Recording keeps what was recorded (R131). -/
theorem record_keeps (fs : FaultSet) (f g : Fault) (h : fs.has g = true) : (fs.record f).has g = true := by
  cases f <;> cases g <;> simp_all [FaultSet.record, FaultSet.has]

/-- Recording a reason twice is recording it once: the faults are a set (R29). -/
@[simp] theorem record_twice (fs : FaultSet) (f : Fault) : (fs.record f).record f = fs.record f := by cases f <;> rfl

end Sys2Proof.Machine
end

