-- ==== Sys2Proof/Laws/Ops.lean ====
section
/-! SUPPORT. For each shared operation of the machine, once, everything it can do. Later proofs cite these instead of
unfolding the operations. -/

namespace Sys2Proof.Machine

open Sys2Proof

/-! Steps 1 to 3 of PROCESS_BYTE. -/

/-- Step 1 resets `pos` on a timeout and changes nothing else (R90). -/
theorem checkTimeout_cases (s : State) (t : U32) :
    (s.timedOut t = true ∧ s.checkTimeout t = s.setPos 0) ∨ (s.timedOut t = false ∧ s.checkTimeout t = s) := by
  unfold State.checkTimeout
  cases s.timedOut t <;> simp

/-- Step 2 stamps a frame's first byte and changes nothing else (R91). -/
theorem stampStart_cases (s : State) (t : U32) :
    (s.pos.val = 0 ∧ s.stampStart t = s.setStart t) ∨ (s.pos.val ≠ 0 ∧ s.stampStart t = s) := by
  unfold State.stampStart
  by_cases h : s.pos.val = 0 <;> simp [h]

/-- Step 3 stores at `pos` and advances it, or drops the byte at a full buffer (R92). -/
theorem storeByte_cases (s : State) (b : U8) :
    (∃ h : s.pos.val < Config.frameSizeMax,
        s.storeByte b = (s.setByte ⟨s.pos.val, h⟩ b).setPos ⟨s.pos.val + 1, Nat.succ_lt_succ h⟩) ∨
      (s.pos.val = Config.frameSizeMax ∧ s.storeByte b = s) := by
  unfold State.storeByte
  by_cases h : s.pos.val < Config.frameSizeMax
  · exact .inl ⟨h, by simp [h]⟩
  · exact .inr ⟨by have := s.pos.isLt; omega, by simp [h]⟩

/-- The byte after a timeout is the first of a new frame, stamped with its own time (R90 to R92, R99). -/
theorem receive_timeout (s : State) (b : U8) (t : U32) (h : s.timedOut t = true) :
    s.receive b t = { s with buf := s.buf.set 0 b, pos := 1, start := t } := by
  simp [State.receive, State.checkTimeout, h, State.stampStart, State.storeByte, State.setPos, State.setStart,
    State.setByte]

/-- The first byte of a frame (R91, R92). -/
theorem receive_first (s : State) (b : U8) (t : U32) (h : s.pos.val = 0) :
    s.receive b t = { s with buf := s.buf.set 0 b, pos := 1, start := t } := by
  cases ht : s.timedOut t
  · have hp : s.pos = 0 := Fin.ext h
    simp [State.receive, State.checkTimeout, ht, State.stampStart, State.storeByte, State.setPos, State.setStart,
      State.setByte, hp]
  · exact receive_timeout s b t ht

/-- A later byte of a frame, in time and with room (R92). -/
theorem receive_next (s : State) (b : U8) (t : U32) (ht : s.timedOut t = false) (h0 : s.pos.val ≠ 0)
    (h : s.pos.val < Config.frameSizeMax) :
    s.receive b t = { s with buf := s.buf.set s.pos.val b h, pos := ⟨s.pos.val + 1, Nat.succ_lt_succ h⟩ } := by
  simp [State.receive, State.checkTimeout, ht, State.stampStart, State.storeByte, State.setPos, State.setByte, h0, h]

/-- A byte at a full buffer, in time, is dropped (R92, R97). -/
theorem receive_full (s : State) (b : U8) (t : U32) (ht : s.timedOut t = false)
    (h : s.pos.val = Config.frameSizeMax) : s.receive b t = s := by
  simp [State.receive, State.checkTimeout, ht, State.stampStart, State.storeByte, h]

/-- Steps 1 to 3 in one: a new frame, a later byte, or a dropped byte (R90 to R92, R99). -/
theorem receive_cases (s : State) (b : U8) (t : U32) :
    ((s.timedOut t = true ∨ s.pos.val = 0) ∧
        s.receive b t = { s with buf := s.buf.set 0 b, pos := 1, start := t }) ∨
      (s.timedOut t = false ∧ s.pos.val ≠ 0 ∧ (∃ h : s.pos.val < Config.frameSizeMax,
        s.receive b t = { s with buf := s.buf.set s.pos.val b h, pos := ⟨s.pos.val + 1, Nat.succ_lt_succ h⟩ })) ∨
      (s.timedOut t = false ∧ s.pos.val = Config.frameSizeMax ∧ s.receive b t = s) := by
  by_cases h0 : s.pos.val = 0
  · exact .inl ⟨.inr h0, receive_first s b t h0⟩
  cases ht : s.timedOut t
  · by_cases h : s.pos.val < Config.frameSizeMax
    · exact .inr (.inl ⟨rfl, h0, h, receive_next s b t ht h0 h⟩)
    · have hf : s.pos.val = Config.frameSizeMax := by have := s.pos.isLt; omega
      exact .inr (.inr ⟨rfl, hf, receive_full s b t ht hf⟩)
  · exact .inl ⟨.inl rfl, receive_timeout s b t ht⟩

/-- Steps 1 to 3 write `buf`, `pos` and `start` only (R90 to R92). -/
theorem receive_frame (s : State) (b : U8) (t : U32) :
    s.receive b t = { s with buf := (s.receive b t).buf, pos := (s.receive b t).pos, start := (s.receive b t).start } := by
  rcases receive_cases s b t with ⟨-, h⟩ | ⟨-, -, _, h⟩ | ⟨-, -, h⟩ <;> rw [h]

@[simp] theorem receive_ch (s : State) (b : U8) (t : U32) : (s.receive b t).ch = s.ch := by rw [receive_frame]
@[simp] theorem receive_lastValid (s : State) (b : U8) (t : U32) : (s.receive b t).lastValid = s.lastValid := by
  rw [receive_frame]
@[simp] theorem receive_pending (s : State) (b : U8) (t : U32) : (s.receive b t).pending = s.pending := by
  rw [receive_frame]
@[simp] theorem receive_initDone (s : State) (b : U8) (t : U32) : (s.receive b t).initDone = s.initDone := by
  rw [receive_frame]
@[simp] theorem receive_faults (s : State) (b : U8) (t : U32) : (s.receive b t).faults = s.faults := by
  rw [receive_frame]
@[simp] theorem receive_refused (s : State) (b : U8) (t : U32) : (s.receive b t).refused = s.refused := by
  rw [receive_frame]
@[simp] theorem receive_zeroLenPolicy (s : State) (b : U8) (t : U32) :
    (s.receive b t).zeroLenPolicy = s.zeroLenPolicy := by rw [receive_frame]
@[simp] theorem receive_src (s : State) (b : U8) (t : U32) : (s.receive b t).src = s.src := by rw [receive_frame]
@[simp] theorem receive_con (s : State) (b : U8) (t : U32) : (s.receive b t).con = s.con := by rw [receive_frame]
@[simp] theorem receive_issuer (s : State) (b : U8) (t : U32) : (s.receive b t).issuer = s.issuer := by
  rw [receive_frame]
@[simp] theorem receive_atDispatch (s : State) (b : U8) (t : U32) : (s.receive b t).atDispatch = s.atDispatch := by
  rw [receive_frame]
@[simp] theorem receive_schedule (s : State) (b : U8) (t : U32) : (s.receive b t).schedule = s.schedule := by
  rw [receive_frame]

/-! Dispatch and completion. -/

/-- Dispatch of a frame completed at `t`: it is decoded, or ignored, and leaves dispatch (R120, R121, R128). -/
theorem dispatchFrame_cases (s : State) (t : U32) (h : s.atDispatch = some t) :
    (isRcHeader s.buf[0] s.buf[2] = true ∧ s.dispatchFrame = (s.setAtDispatch none).decodeFrame t) ∨
      (isRcHeader s.buf[0] s.buf[2] = false ∧ s.dispatchFrame = s.setAtDispatch none) := by
  unfold State.dispatchFrame State.dispatchRcChannels State.dispatchIgnored
  cases isRcHeader s.buf[0] s.buf[2] <;> simp [h]

/-- What the completion of a frame can do (R95, R96, R103, R112, R120): record the zero-length fault, discard the frame,
decode it, or ignore it. -/
theorem completeFrame_cases (s : State) (t : U32) :
    (s.zeroLengthFault = true ∧ s.completeFrame t = (s.setPos 0).raise .zeroLengthFrame) ∨
      (s.zeroLengthFault = false ∧ s.crcMatches = false ∧ s.completeFrame t = s.setPos 0) ∨
      (s.zeroLengthFault = false ∧ s.crcMatches = true ∧ isRcHeader s.buf[0] s.buf[2] = true ∧
        s.completeFrame t = ((s.setPos 0).setAtDispatch none).decodeFrame t) ∨
      (s.zeroLengthFault = false ∧ s.crcMatches = true ∧ isRcHeader s.buf[0] s.buf[2] = false ∧
        s.completeFrame t = (s.setPos 0).setAtDispatch none) := by
  unfold State.completeFrame
  cases hz : s.zeroLengthFault
  · cases hc : s.crcMatches
    · simp
    · rcases dispatchFrame_cases ((s.setPos 0).setAtDispatch (some t)) t rfl with ⟨h, e⟩ | ⟨h, e⟩
      · refine .inr (.inr (.inl ⟨rfl, rfl, h, ?_⟩)); exact e
      · refine .inr (.inr (.inr ⟨rfl, rfl, h, ?_⟩)); exact e
  · simp

/-- PROCESS_BYTE after its checks: the frame is still unfinished, or it completes (R82, R93, R94). -/
theorem processByte_cases (s : State) (b : U8) (t : U32) :
    ((s.receive b t).frameComplete = false ∧ s.processByte b t = s.receive b t) ∨
      ((s.receive b t).frameComplete = true ∧ s.processByte b t = (s.receive b t).completeFrame t) := by
  unfold State.processByte
  cases (s.receive b t).frameComplete <;> simp

/-- A complete frame has three bytes and as many as its length says (R93, R94). -/
@[simp] theorem frameComplete_iff (s : State) :
    s.frameComplete = true ↔ 2 < s.pos.val ∧ s.buf[1].toNat + 2 ≤ s.pos.val :=
  decide_eq_true_iff

/-- The zero-length fault needs a length field of 0 and the policy `fault` (R103). -/
@[simp] theorem zeroLengthFault_iff (s : State) :
    s.zeroLengthFault = true ↔ s.buf[1] = 0 ∧ s.zeroLenPolicy = .fault := by
  have h : s.buf[1].toNat + 2 = 2 ↔ s.buf[1] = 0 := by
    constructor
    · intro h; exact BitVec.eq_of_toNat_eq (by simpa using h)
    · intro h; simp [h]
  simp only [State.zeroLengthFault, State.total, decide_eq_true_eq, h]

/-- The completion of a frame writes `pos`, `lastValid`, `pending`, `faults` and the dispatch point only. -/
theorem completeFrame_frame (s : State) (t : U32) :
    s.completeFrame t = { s with pos := 0, lastValid := (s.completeFrame t).lastValid,
                                 pending := (s.completeFrame t).pending, faults := (s.completeFrame t).faults,
                                 atDispatch := (s.completeFrame t).atDispatch } := by
  rcases completeFrame_cases s t with ⟨-, e⟩ | ⟨-, -, e⟩ | ⟨-, -, -, e⟩ | ⟨-, -, -, e⟩ <;> rw [e] <;> rfl

@[simp] theorem completeFrame_buf (s : State) (t : U32) : (s.completeFrame t).buf = s.buf := by
  rw [completeFrame_frame]
@[simp] theorem completeFrame_start (s : State) (t : U32) : (s.completeFrame t).start = s.start := by
  rw [completeFrame_frame]
@[simp] theorem completeFrame_ch (s : State) (t : U32) : (s.completeFrame t).ch = s.ch := by
  rw [completeFrame_frame]
@[simp] theorem completeFrame_initDone (s : State) (t : U32) : (s.completeFrame t).initDone = s.initDone := by
  rw [completeFrame_frame]
@[simp] theorem completeFrame_refused (s : State) (t : U32) : (s.completeFrame t).refused = s.refused := by
  rw [completeFrame_frame]
@[simp] theorem completeFrame_zeroLenPolicy (s : State) (t : U32) : (s.completeFrame t).zeroLenPolicy = s.zeroLenPolicy := by
  rw [completeFrame_frame]
@[simp] theorem completeFrame_src (s : State) (t : U32) : (s.completeFrame t).src = s.src := by
  rw [completeFrame_frame]
@[simp] theorem completeFrame_con (s : State) (t : U32) : (s.completeFrame t).con = s.con := by
  rw [completeFrame_frame]
@[simp] theorem completeFrame_issuer (s : State) (t : U32) : (s.completeFrame t).issuer = s.issuer := by
  rw [completeFrame_frame]
@[simp] theorem completeFrame_schedule (s : State) (t : U32) : (s.completeFrame t).schedule = s.schedule := by
  rw [completeFrame_frame]
@[simp] theorem completeFrame_pos (s : State) (t : U32) : (s.completeFrame t).pos = 0 := by
  rw [completeFrame_frame]

/-- PROCESS_BYTE writes `buf`, `pos`, `start`, `lastValid`, `pending`, `faults` and the dispatch point only (R82). -/
theorem processByte_frame (s : State) (b : U8) (t : U32) :
    s.processByte b t =
      { s with buf := (s.receive b t).buf, pos := (s.processByte b t).pos, start := (s.receive b t).start,
               lastValid := (s.processByte b t).lastValid, pending := (s.processByte b t).pending,
               faults := (s.processByte b t).faults, atDispatch := (s.processByte b t).atDispatch } := by
  rcases processByte_cases s b t with ⟨-, e⟩ | ⟨-, e⟩ <;> rw [e]
  · conv_lhs => rw [receive_frame]
    simp
  · conv_lhs => rw [completeFrame_frame]
    simp

@[simp] theorem processByte_ch (s : State) (b : U8) (t : U32) : (s.processByte b t).ch = s.ch := by
  rw [processByte_frame]
@[simp] theorem processByte_initDone (s : State) (b : U8) (t : U32) : (s.processByte b t).initDone = s.initDone := by
  rw [processByte_frame]
@[simp] theorem processByte_refused (s : State) (b : U8) (t : U32) : (s.processByte b t).refused = s.refused := by
  rw [processByte_frame]
@[simp] theorem processByte_zeroLenPolicy (s : State) (b : U8) (t : U32) : (s.processByte b t).zeroLenPolicy = s.zeroLenPolicy := by
  rw [processByte_frame]
@[simp] theorem processByte_src (s : State) (b : U8) (t : U32) : (s.processByte b t).src = s.src := by
  rw [processByte_frame]
@[simp] theorem processByte_con (s : State) (b : U8) (t : U32) : (s.processByte b t).con = s.con := by
  rw [processByte_frame]
@[simp] theorem processByte_issuer (s : State) (b : U8) (t : U32) : (s.processByte b t).issuer = s.issuer := by
  rw [processByte_frame]
@[simp] theorem processByte_schedule (s : State) (b : U8) (t : U32) : (s.processByte b t).schedule = s.schedule := by
  rw [processByte_frame]
/-- A command other than INIT either has its effect or records NotInitialized (R80, R131). -/
theorem afterInit_cases (s e : State) :
    (s.initDone = true ∧ s.afterInit e = e) ∨ (s.initDone = false ∧ s.afterInit e = s.raise .notInitialized) := by
  unfold State.afterInit
  cases s.initDone <;> simp

/-- A Retire of a slot with no pending write does nothing (R140). -/
theorem retire_none (s : State) (i : Fin Config.nDecoded) (h : s.pending[i.val]'i.isLt = none) : s.retire i = s := by
  simp [State.retire, h]

/-- A Retire performs the slot's write and takes it out of the set (R28). -/
theorem retire_some (s : State) (i : Fin Config.nDecoded) (v : U16) (h : s.pending[i.val]'i.isLt = some v) :
    s.retire i = (s.setChannel i v).setPending (s.pending.set i.val none i.isLt) := by
  simp [State.retire, h]

/-- The slot an index names is the index (R63, R83). -/
theorem channelSlot_eq_some (index : U32) (i : Fin Config.nChannels) :
    channelSlot index = some i ↔ index.toInt = (i.val : Int) := by
  have := i.isLt
  unfold channelSlot
  split
  · rw [Option.some.injEq, Fin.ext_iff]
    simp only
    omega
  · simp only [reduceCtorEq, false_iff]
    omega

/-- No slot is named exactly by the indices outside 0..15 (R83). -/
theorem channelSlot_eq_none (index : U32) :
    channelSlot index = none ↔ index.toInt < 0 ∨ (Config.nChannels : Int) ≤ index.toInt := by
  unfold channelSlot
  split
  · simp only [reduceCtorEq, false_iff]; omega
  · simp only [true_iff]; omega

end Sys2Proof.Machine
end

