-- ==== Sys2Proof/Laws/Step.lean ====
section
/-! SUPPORT. What one step can do, said once: which turn it takes, how a command runs, and what each meaning answers. -/

namespace Sys2Proof.Machine

open Sys2Proof

/-! The pending set. -/

@[simp] theorem noWrites_getElem (i : Nat) (h : i < Config.nDecoded) : noWrites[i] = none := by simp [noWrites]

@[simp] theorem decodedWrites_getElem (buf : Vector U8 Config.frameSizeMax) (i : Nat) (h : i < Config.nDecoded) :
    (decodedWrites buf)[i] = some (rescale (unpack buf i)) := by simp [decodedWrites]

/-- A decoded frame always leaves slot writes pending (R28, R121). -/
theorem decodedWrites_ne (buf : Vector U8 Config.frameSizeMax) : decodedWrites buf ≠ noWrites := by
  intro h
  have h0 := congrArg (fun p : Pending => p[0]) h
  simp at h0

/-- The set is empty when no slot has a write. -/
theorem eq_noWrites_iff (p : Pending) : p = noWrites ↔ ∀ i : Fin Config.nDecoded, p[i.val]'i.isLt = none := by
  constructor
  · rintro rfl i; simp
  · intro h
    apply Vector.ext
    intro i hi
    rw [noWrites_getElem, h ⟨i, hi⟩]

/-! The meanings. Every one of them answers a next state. -/

/-- `mapNext` on a next state. -/
@[simp] theorem mapNext_next (f : State → State) (s : State) : mapNext f (.next s) = .next (f s) := rfl

/-- Every meaning answers a next state: faults and refusals are recorded in it (R131, R132). -/
theorem exec_next (i : Instr) (s : State) : ∃ t, exec i s = .next t := by
  cases i with
  | init => by_cases h : s.pending = noWrites <;> simp [exec, execInit, h]
  | processByte b t => cases h : s.issuer <;> simp [exec, execProcessByte, h]
  | _ => exact ⟨_, rfl⟩

/-- INIT's two outcomes (R81, R142). -/
theorem execInit_cases (s : State) :
    (s.pending = noWrites ∧ exec .init s = .next ((s.setPos 0).zeroChannels).setInitDone) ∨
      (s.pending ≠ noWrites ∧ exec .init s = .next (s.raise .initOverlap)) := by
  by_cases h : s.pending = noWrites <;> simp [exec, execInit, h]

/-- PROCESS_BYTE's outcomes (R82, R131, R132). -/
theorem execProcessByte_cases (b : U8) (t : U32) (s : State) :
    (s.issuer = .consumer ∧ exec (.processByte b t) s = .next (s.refuse .wrongAgent)) ∨
      (s.issuer = .byteSource ∧ s.initDone = false ∧ exec (.processByte b t) s = .next (s.raise .notInitialized)) ∨
      (s.issuer = .byteSource ∧ s.initDone = true ∧ exec (.processByte b t) s = .next (s.processByte b t)) := by
  cases hi : s.issuer
  · rcases afterInit_cases s (s.processByte b t) with ⟨h, e⟩ | ⟨h, e⟩ <;> simp [exec, execProcessByte, hi, h, e]
  · simp [exec, execProcessByte, hi]

/-- GET_CHANNEL's outcomes (R83, R131). -/
theorem execGetChannel_cases (x : U32) (s : State) :
    (s.initDone = true ∧ exec (.getChannel x) s = .next (s.respond (s.channelAt x))) ∨
      (s.initDone = false ∧ exec (.getChannel x) s = .next (s.raise .notInitialized)) := by
  rcases afterInit_cases s (s.respond (s.channelAt x)) with ⟨h, e⟩ | ⟨h, e⟩ <;> simp [exec, execGetChannel, h, e]

/-- IS_CONNECTED's outcomes (R84, R131). -/
theorem execIsConnected_cases (s : State) :
    (s.initDone = true ∧ exec .isConnected s = .next (s.respond 0x0001)) ∨
      (s.initDone = false ∧ exec .isConnected s = .next (s.raise .notInitialized)) := by
  rcases afterInit_cases s (s.respond 0x0001) with ⟨h, e⟩ | ⟨h, e⟩ <;> simp only [exec, execIsConnected, h, e] <;> simp

/-! Turns. -/

/-- The fair turn is an enabled one (R141). -/
theorem fairTurn_enabled (s : State) (x : Turn) (h : s.fairTurn = some x) : s.enabled x = true := by
  unfold State.fairTurn at h
  split at h
  next i hi =>
    obtain rfl := Option.some.inj h
    simpa using List.find?_some hi
  next =>
    split at h
    next he => obtain rfl := Option.some.inj h; exact he
    next =>
      split at h
      next he => obtain rfl := Option.some.inj h; exact he
      next => cases h

/-- A step takes an enabled turn only (R141). -/
theorem turn_enabled (s : State) (x : Turn) (h : s.turn = some x) : s.enabled x = true := by
  unfold State.turn at h
  split at h
  · exact fairTurn_enabled s x h
  · split at h
    next he => obtain rfl := Option.some.inj h; exact he
    next => cases h

/-- An agent has a command left when its position is inside its sequence (R143). -/
theorem hasCommand_iff (s : State) (a : Agent) :
    s.hasCommand a = true ↔ (s.agent a).position < (s.agent a).program.length := decide_eq_true_iff

/-- The ByteSource is enabled only with no write pending (R141). -/
theorem enabled_byteSource (s : State) :
    s.enabled .byteSource = true ↔ s.pending = noWrites ∧ s.src.position < s.src.program.length := by
  rw [State.enabled, Bool.and_eq_true, hasCommand_iff]
  simp [State.sourceHolds]

/-- The Consumer is enabled with a command left (R141). -/
theorem enabled_consumer (s : State) : s.enabled .consumer = true ↔ s.con.position < s.con.program.length :=
  hasCommand_iff s .consumer

/-- Retire is enabled for a slot with a write pending (R28, R141). -/
theorem enabled_retire (s : State) (i : Fin Config.nDecoded) :
    s.enabled (.retire i) = true ↔ ∃ v, s.pending[i.val]'i.isLt = some v := by
  simp [State.enabled, Option.isSome_iff_exists]

/-! Commands and steps. -/

/-- How a command runs: no word, a refused word, or an instruction (R27, R65, R80). -/
theorem runCommand_cases (a : Agent) (s : State) :
    (s.fetch a = none ∧ runCommand a s = .next s) ∨
      (∃ w, s.fetch a = some w ∧ decodeCommand w = .error .reservedBits ∧
        runCommand a s = .next (((s.setIssuer a).refuse .reservedBits).finish a)) ∨
      (∃ w i u, s.fetch a = some w ∧ decodeCommand w = .ok i ∧ exec i (s.setIssuer a) = .next u ∧
        runCommand a s = .next (u.finish a)) := by
  unfold runCommand
  cases hf : s.fetch a with
  | none => exact .inl ⟨rfl, rfl⟩
  | some w =>
    cases hd : decodeCommand w with
    | error r => cases r; exact .inr (.inl ⟨w, rfl, hd, by simp [hd]⟩)
    | ok i =>
      obtain ⟨u, hu⟩ := exec_next i (s.setIssuer a)
      exact .inr (.inr ⟨w, i, u, rfl, hd, hu, by simp [hd, hu]⟩)

/-- The instruction a command word spells is a command, never a frame header (R62). -/
theorem decodeCommand_is_command (w : CmdWord) (i : Instr) (h : decodeCommand w = .ok i) :
    i = .init ∨ (∃ b t, i = .processByte b t) ∨ (∃ x, i = .getChannel x) ∨ i = .isConnected := by
  unfold decodeCommand at h
  repeat' split at h
  all_goals cases h <;> simp

/-- One step (R96, R141): the rest of a PROCESS_BYTE at dispatch, or a turn. -/
theorem step_cases (s : State) :
    (∃ x, s.atDispatch = some x ∧ step s = runDispatch s) ∨
      (s.atDispatch = none ∧ s.turn = none ∧ step s = .next s.takeTurn) ∨
      (∃ i, s.atDispatch = none ∧ s.turn = some (.retire i) ∧ step s = .next (s.takeTurn.retireStep i)) ∨
      (s.atDispatch = none ∧ s.turn = some .byteSource ∧ step s = runCommand .byteSource s.takeTurn) ∨
      (s.atDispatch = none ∧ s.turn = some .consumer ∧ step s = runCommand .consumer s.takeTurn) := by
  unfold step
  cases hd : s.atDispatch with
  | some x => exact .inl ⟨x, rfl, rfl⟩
  | none =>
    cases ht : s.turn with
    | none => simp [runTurn]
    | some x => cases x <;> simp [runTurn]

/-- A step with no frame at dispatch is its turn's (R141). -/
theorem step_of_turn (s : State) (h : s.atDispatch = none) : step s = runTurn s.turn s.takeTurn := by
  unfold step
  split
  next h' => simp [h] at h'
  next => rfl

/-- A step with a frame at dispatch is the rest of its PROCESS_BYTE (R96). -/
theorem step_of_dispatch (s : State) (t : U32) (h : s.atDispatch = some t) : step s = runDispatch s := by
  unfold step
  split
  next => rfl
  next h' => simp [h] at h'

@[simp] theorem fetch_takeTurn (s : State) (a : Agent) : s.takeTurn.fetch a = s.fetch a := by cases a <;> rfl

/-- A command whose word decodes runs its instruction as the agent's, then completes (R27, R80). -/
theorem runCommand_of_decode (a : Agent) (s : State) (w : CmdWord) (i : Instr) (hf : s.fetch a = some w)
    (hd : decodeCommand w = .ok i) : runCommand a s = mapNext (fun s' => s'.finish a) (exec i (s.setIssuer a)) := by
  simp [runCommand, hf, hd]

/-- A refused word sets the mark, and the command completes (R65). -/
theorem runCommand_of_refusal (a : Agent) (s : State) (w : CmdWord) (hf : s.fetch a = some w)
    (hd : decodeCommand w = .error .reservedBits) :
    runCommand a s = .next (((s.setIssuer a).refuse .reservedBits).finish a) := by
  simp [runCommand, hf, hd]

/-- A completing command moves a position and nothing else (R27, R28). -/
theorem finish_cases (s : State) (a : Agent) : s.finish a = s ∨ s.finish a = s.advance a := by
  unfold State.finish
  cases a
  · by_cases h : s.pending = noWrites <;> simp [h]
  · simp

/-! What the steps around a meaning leave alone, field by field. -/

@[simp] theorem takeTurn_buf (s : State) : s.takeTurn.buf = s.buf := rfl
@[simp] theorem takeTurn_pos (s : State) : s.takeTurn.pos = s.pos := rfl
@[simp] theorem takeTurn_start (s : State) : s.takeTurn.start = s.start := rfl
@[simp] theorem takeTurn_ch (s : State) : s.takeTurn.ch = s.ch := rfl
@[simp] theorem takeTurn_lastValid (s : State) : s.takeTurn.lastValid = s.lastValid := rfl
@[simp] theorem takeTurn_pending (s : State) : s.takeTurn.pending = s.pending := rfl
@[simp] theorem takeTurn_initDone (s : State) : s.takeTurn.initDone = s.initDone := rfl
@[simp] theorem takeTurn_faults (s : State) : s.takeTurn.faults = s.faults := rfl
@[simp] theorem takeTurn_refused (s : State) : s.takeTurn.refused = s.refused := rfl
@[simp] theorem takeTurn_zeroLenPolicy (s : State) : s.takeTurn.zeroLenPolicy = s.zeroLenPolicy := rfl
@[simp] theorem takeTurn_src (s : State) : s.takeTurn.src = s.src := rfl
@[simp] theorem takeTurn_con (s : State) : s.takeTurn.con = s.con := rfl
@[simp] theorem takeTurn_issuer (s : State) : s.takeTurn.issuer = s.issuer := rfl
@[simp] theorem takeTurn_atDispatch (s : State) : s.takeTurn.atDispatch = s.atDispatch := rfl

@[simp] theorem retire_buf (s : State) (i : Fin Config.nDecoded) : (s.retire i).buf = s.buf := by
  unfold State.retire
  split <;> simp
@[simp] theorem retire_pos (s : State) (i : Fin Config.nDecoded) : (s.retire i).pos = s.pos := by
  unfold State.retire
  split <;> simp
@[simp] theorem retire_start (s : State) (i : Fin Config.nDecoded) : (s.retire i).start = s.start := by
  unfold State.retire
  split <;> simp
@[simp] theorem retire_lastValid (s : State) (i : Fin Config.nDecoded) : (s.retire i).lastValid = s.lastValid := by
  unfold State.retire
  split <;> simp
@[simp] theorem retire_initDone (s : State) (i : Fin Config.nDecoded) : (s.retire i).initDone = s.initDone := by
  unfold State.retire
  split <;> simp
@[simp] theorem retire_faults (s : State) (i : Fin Config.nDecoded) : (s.retire i).faults = s.faults := by
  unfold State.retire
  split <;> simp
@[simp] theorem retire_refused (s : State) (i : Fin Config.nDecoded) : (s.retire i).refused = s.refused := by
  unfold State.retire
  split <;> simp
@[simp] theorem retire_zeroLenPolicy (s : State) (i : Fin Config.nDecoded) : (s.retire i).zeroLenPolicy = s.zeroLenPolicy := by
  unfold State.retire
  split <;> simp
@[simp] theorem retire_src (s : State) (i : Fin Config.nDecoded) : (s.retire i).src = s.src := by
  unfold State.retire
  split <;> simp
@[simp] theorem retire_con (s : State) (i : Fin Config.nDecoded) : (s.retire i).con = s.con := by
  unfold State.retire
  split <;> simp
@[simp] theorem retire_issuer (s : State) (i : Fin Config.nDecoded) : (s.retire i).issuer = s.issuer := by
  unfold State.retire
  split <;> simp
@[simp] theorem retire_atDispatch (s : State) (i : Fin Config.nDecoded) : (s.retire i).atDispatch = s.atDispatch := by
  unfold State.retire
  split <;> simp
@[simp] theorem retire_schedule (s : State) (i : Fin Config.nDecoded) : (s.retire i).schedule = s.schedule := by
  unfold State.retire
  split <;> simp

@[simp] theorem finish_buf (s : State) (a : Agent) : (s.finish a).buf = s.buf := by
  rcases finish_cases s a with e | e <;> simp [e]
@[simp] theorem finish_pos (s : State) (a : Agent) : (s.finish a).pos = s.pos := by
  rcases finish_cases s a with e | e <;> simp [e]
@[simp] theorem finish_start (s : State) (a : Agent) : (s.finish a).start = s.start := by
  rcases finish_cases s a with e | e <;> simp [e]
@[simp] theorem finish_ch (s : State) (a : Agent) : (s.finish a).ch = s.ch := by
  rcases finish_cases s a with e | e <;> simp [e]
@[simp] theorem finish_lastValid (s : State) (a : Agent) : (s.finish a).lastValid = s.lastValid := by
  rcases finish_cases s a with e | e <;> simp [e]
@[simp] theorem finish_pending (s : State) (a : Agent) : (s.finish a).pending = s.pending := by
  rcases finish_cases s a with e | e <;> simp [e]
@[simp] theorem finish_initDone (s : State) (a : Agent) : (s.finish a).initDone = s.initDone := by
  rcases finish_cases s a with e | e <;> simp [e]
@[simp] theorem finish_faults (s : State) (a : Agent) : (s.finish a).faults = s.faults := by
  rcases finish_cases s a with e | e <;> simp [e]
@[simp] theorem finish_refused (s : State) (a : Agent) : (s.finish a).refused = s.refused := by
  rcases finish_cases s a with e | e <;> simp [e]
@[simp] theorem finish_zeroLenPolicy (s : State) (a : Agent) : (s.finish a).zeroLenPolicy = s.zeroLenPolicy := by
  rcases finish_cases s a with e | e <;> simp [e]
@[simp] theorem finish_issuer (s : State) (a : Agent) : (s.finish a).issuer = s.issuer := by
  rcases finish_cases s a with e | e <;> simp [e]
@[simp] theorem finish_atDispatch (s : State) (a : Agent) : (s.finish a).atDispatch = s.atDispatch := by
  rcases finish_cases s a with e | e <;> simp [e]
@[simp] theorem finish_schedule (s : State) (a : Agent) : (s.finish a).schedule = s.schedule := by
  rcases finish_cases s a with e | e <;> simp [e]

/-- What holds of every step, from what holds of its parts: a meaning run by an agent or at dispatch, a refused word, a
Retire, an idle turn, and the completion of a command. -/
theorem step_relation (R : State → State → Prop)
    (hfinish : ∀ s t a, R s t → R s (t.finish a))
    (hcommand : ∀ s a w i u, s.atDispatch = none →
      (s.turn = some .byteSource ∧ a = .byteSource ∨ s.turn = some .consumer ∧ a = .consumer) →
      s.fetch a = some w → decodeCommand w = .ok i → exec i (s.takeTurn.setIssuer a) = .next u → R s u)
    (hdispatch : ∀ s x u, s.atDispatch = some x → exec (decodeHeader s.frameHeader) s = .next u → R s u)
    (hrefused : ∀ s a, R s ((s.takeTurn.setIssuer a).refuse .reservedBits))
    (hretire : ∀ s i, s.atDispatch = none → s.turn = some (.retire i) → R s (s.takeTurn.retire i))
    (hidle : ∀ s, R s s.takeTurn) (s t : State) (h : step s = .next t) : R s t := by
  rcases step_cases s with ⟨x, hx, e⟩ | ⟨-, -, e⟩ | ⟨i, hd, ht, e⟩ | ⟨hd, ht, e⟩ | ⟨hd, ht, e⟩ <;> rw [e] at h
  · obtain ⟨u, hu⟩ := exec_next (decodeHeader s.frameHeader) s
    rw [runDispatch, hu] at h
    obtain rfl := Host.Outcome.next.inj h
    exact hfinish _ _ _ (hdispatch s x u hx hu)
  · obtain rfl := Host.Outcome.next.inj h
    exact hidle s
  · obtain rfl := Host.Outcome.next.inj h
    exact hfinish _ _ _ (hretire s i hd ht)
  · rcases runCommand_cases .byteSource s.takeTurn with ⟨-, e⟩ | ⟨_, -, -, e⟩ | ⟨w, i, u, hf, hw, hu, e⟩ <;>
      rw [e] at h <;> obtain rfl := Host.Outcome.next.inj h
    · exact hidle s
    · exact hfinish _ _ _ (hrefused s _)
    · exact hfinish _ _ _ (hcommand s _ w i u hd (.inl ⟨ht, rfl⟩) hf hw hu)
  · rcases runCommand_cases .consumer s.takeTurn with ⟨-, e⟩ | ⟨_, -, -, e⟩ | ⟨w, i, u, hf, hw, hu, e⟩ <;>
      rw [e] at h <;> obtain rfl := Host.Outcome.next.inj h
    · exact hidle s
    · exact hfinish _ _ _ (hrefused s _)
    · exact hfinish _ _ _ (hcommand s _ w i u hd (.inr ⟨ht, rfl⟩) hf hw hu)

end Sys2Proof.Machine
end

