-- ==== Sys2Proof/Laws/Bytes.lean ====
section
/-! SUPPORT. PROCESS_BYTE in the terms of Safety.lean: when it has its own effect, what it stores, and how a completed frame
ends. -/

namespace Sys2Proof.Machine

open Sys2Proof

/-- With INIT done and the ByteSource issuing, PROCESS_BYTE has its own effect (R82). -/
theorem exec_processByte_ready (s : State) (b : U8) (t : U32) (h : s.ByteReady) :
    exec (.processByte b t) s = .next (s.processByte b t) := by
  rcases execProcessByte_cases b t s with ⟨h', -⟩ | ⟨-, h', -⟩ | ⟨-, -, e⟩
  · simp [h.1] at h'
  · simp [h.2] at h'
  · exact e

/-- The timeout as R90 writes it. -/
theorem timedOut_iff (s : State) (t : U32) : s.timedOut t = true ↔ Config.frameTimeoutUs < t - s.start := decide_eq_true_iff

/-- No timeout, as R90 writes it: an elapsed time of exactly 1750 is in time. -/
theorem timedOut_eq_false (s : State) (t : U32) : s.timedOut t = false ↔ t - s.start ≤ Config.frameTimeoutUs := by
  rw [← Bool.not_eq_true, timedOut_iff, BitVec.not_lt]

/-- A byte in time, into a frame that has begun and has room, is stored (R92). -/
theorem receive_takes (s : State) (b : U8) (t : U32) (h : s.TakesByteAt t) : s.receive b t = s.withByte b h.2.2.1 :=
  receive_next s b t ((timedOut_eq_false s t).2 h.2.2.2) h.2.1 h.2.2.1

/-- Completion as R93 and R94 write it. -/
theorem isComplete_iff (s : State) : s.IsComplete ↔ s.frameComplete = true := (frameComplete_iff s).symm

/-- The CRC check as R111 and R112 write it. -/
theorem crcGood_iff (s : State) : s.CrcGood ↔ s.crcMatches = true := by
  have h1 : s.total - 1 = s.buf[1].toNat + 1 := rfl
  have h2 : s.total - 3 = s.buf[1].toNat - 1 := by unfold State.total; omega
  rw [State.crcMatches, State.checkedRange, h1, h2, beq_iff_eq]
  rfl

/-- The dispatch condition as R120 writes it. -/
theorem isRcFrame_iff (s : State) : s.IsRcFrame ↔ isRcHeader s.buf[0] s.buf[2] = true := by
  simp [State.IsRcFrame, isRcHeader, Config.fcAddr, Config.typeRcChannelsPacked]

/-- The zero-length policy does not fault a frame of another length, nor any frame under `literal` (R103). -/
theorem zeroLengthFault_eq_false (s : State) (h : s.zeroLenPolicy = .literal ∨ s.buf[1] ≠ 0) :
    s.zeroLengthFault = false := by
  rw [← Bool.not_eq_true, zeroLengthFault_iff]
  rintro ⟨h1, h2⟩
  rcases h with h | h
  · rw [h] at h2; cases h2
  · exact h h1

/-- A byte that leaves the frame unfinished (R99). -/
theorem processByte_unfinished (s : State) (b : U8) (t : U32) (h : s.TakesByteAt t)
    (hc : ¬ (s.withByte b h.2.2.1).IsComplete) : s.processByte b t = s.withByte b h.2.2.1 := by
  rw [isComplete_iff, Bool.not_eq_true] at hc
  rw [State.processByte, receive_takes s b t h, hc]
  rfl

/-- A byte that completes the frame (R94). -/
theorem processByte_complete (s : State) (b : U8) (t : U32) (h : s.TakesByteAt t)
    (hc : (s.withByte b h.2.2.1).IsComplete) :
    s.processByte b t = (s.withByte b h.2.2.1).completeFrame t := by
  rw [isComplete_iff] at hc
  rw [State.processByte, receive_takes s b t h, hc]
  rfl

/-- A completed frame whose CRC does not match (R112). -/
theorem completeFrame_bad (s : State) (t : U32) (hz : s.zeroLengthFault = false) (hc : ¬ s.CrcGood) :
    s.completeFrame t = s.setPos 0 := by
  rw [crcGood_iff, Bool.not_eq_true] at hc
  simp [State.completeFrame, hz, hc]

/-- A completed frame that passes its CRC check goes to dispatch (R96, R112). -/
theorem completeFrame_good (s : State) (t : U32) (hz : s.zeroLengthFault = false) (hc : s.CrcGood) :
    s.completeFrame t = ((s.setPos 0).setAtDispatch (some t)).dispatchFrame := by
  rw [crcGood_iff] at hc
  simp [State.completeFrame, hz, hc]

end Sys2Proof.Machine
end

