-- ==== Sys2Proof/Laws/Channels.lean ====
section
/-! SUPPORT. The payload bit by bit (20_memory.md R44): payload bit `n` is bit `n mod 8` of payload byte `n / 8`. -/

namespace Sys2Proof.Machine

open Sys2Proof

/-- Bit `n` of the integer a byte sequence spells (R44). -/
theorem littleEndian_getLsbD (w : Nat) (bs : List U8) (n : Nat) (h : n < w) :
    (littleEndian w bs).getLsbD n = (bs.getD (n / 8) 0).getLsbD (n % 8) := by
  induction bs generalizing n with
  | nil => simp [littleEndian]
  | cons b bs ih =>
    simp only [littleEndian, BitVec.getLsbD_or, BitVec.getLsbD_setWidth, BitVec.getLsbD_shiftLeft, h, decide_true,
      Bool.true_and]
    rcases Nat.lt_or_ge n 8 with hn | hn
    · simp [hn, Nat.div_eq_of_lt hn, Nat.mod_eq_of_lt hn]
    · have hq : n / 8 = (n - 8) / 8 + 1 := by omega
      have hr : n % 8 = (n - 8) % 8 := by omega
      rw [BitVec.getLsbD_of_ge b n hn, hq, hr]
      simp [Nat.not_lt.mpr hn, ih (n - 8) (by omega)]

/-- The payload byte `j` is `buf[3+j]` (R44). -/
theorem payloadBytes_getD (buf : Vector U8 Config.frameSizeMax) (j : Nat) (h : j < Config.rcPayloadBytes) :
    (payloadBytes buf).getD j 0 = buf[3 + j]'(Nat.lt_of_lt_of_le (Nat.add_lt_add_left h 3) (by decide)) := by
  have h1 : j < 22 := h
  change ((buf.toList.drop 3).take 22).getD j 0 = _
  simp [List.getD_eq_getElem?_getD, h1]

/-- Payload bit `n` is bit `n mod 8` of `buf[3 + n / 8]` (R44). -/
theorem payload_getLsbD (buf : Vector U8 Config.frameSizeMax) (n : Nat) (h : n < 176) :
    (payload buf).getLsbD n = (buf[3 + n / 8]'(show _ < 64 by omega)).getLsbD (n % 8) := by
  rw [payload, littleEndian_getLsbD Config.rcPayloadBits _ _ h, payloadBytes_getD buf (n / 8) (show n / 8 < 22 by omega)]

/-- Bit `k` of raw channel `i` is bit `11*i + k` of the payload (R122). -/
theorem unpack_getLsbD (buf : Vector U8 Config.frameSizeMax) (i k : Nat) (hi : i < 16) (hk : k < 11) :
    (unpack buf i).getLsbD k = (buf[3 + (11 * i + k) / 8]'(show _ < 64 by omega)).getLsbD ((11 * i + k) % 8) := by
  rw [← payload_getLsbD buf (11 * i + k) (by omega)]
  simp [unpack, hk, Config.chBits]

end Sys2Proof.Machine
end

