-- ==== Sys2Proof/Laws/Crc8.lean ====
section
/-! SUPPORT. Small laws of the CRC register: its shift and its byte step are linear and lose nothing (42_crc8.md R110,
R114). -/

namespace Sys2Proof.Machine

open Sys2Proof

@[simp] theorem crc8_nil : crc8 [] = 0 := rfl

/-- The CRC of a sequence with one more byte at its end (R110). -/
theorem crc8_append_singleton (seq : List U8) (b : U8) : crc8 (seq ++ [b]) = crcByte (crc8 seq) b := by
  simp [crc8]

/-- One shift is linear (R114). -/
theorem crcShift_xor : ∀ a b : U8, crcShift (a ^^^ b) = crcShift a ^^^ crcShift b := by
  intro a b
  unfold crcShift
  rw [BitVec.getLsbD_xor, BitVec.shiftLeft_xor_distrib]
  cases a.getLsbD 7 <;> cases b.getLsbD 7 <;> simp
  · rw [BitVec.xor_assoc]
  · rw [BitVec.xor_assoc, BitVec.xor_assoc, BitVec.xor_comm Config.crcPoly]
  · rw [BitVec.xor_assoc, BitVec.xor_comm Config.crcPoly, BitVec.xor_assoc, BitVec.xor_self, BitVec.xor_zero]

/-- Any number of shifts is linear (R114). -/
theorem crcShifts_xor (n : Nat) (a b : U8) : crcShifts n (a ^^^ b) = crcShifts n a ^^^ crcShifts n b := by
  induction n generalizing a b with
  | zero => rfl
  | succ n ih => simp only [crcShifts, crcShift_xor, ih]

/-- A shift of a non-zero register is not zero: the polynomial has its lowest bit set (R114). -/
theorem crcShift_eq_zero : ∀ c : U8, crcShift c = 0 ↔ c = 0 := by decide

/-- Shifts lose nothing (R114). -/
theorem crcShifts_eq_zero (n : Nat) (c : U8) : crcShifts n c = 0 ↔ c = 0 := by
  induction n generalizing c with
  | zero => rfl
  | succ n ih => rw [crcShifts, ih, crcShift_eq_zero]

end Sys2Proof.Machine
end

