-- ==== Sys2Proof/Laws/PerInstr.lean ====
section
/-! SUPPORT. The family OwnRow: the encoding of a well-formed instruction matches its own row of opcode_table.json, the only
row of a command word (30_encoding.md R65) and the first row of a header (R69). -/

namespace Sys2Proof

/-- The rows an encoding takes: every row a command word matches, the first a header matches. -/
def rowsOf : Encoded → List String
  | .command w => matchingCommandRows w
  | .header h => (firstHeaderRow h).toList

/-- A word matches a row whose mask is all ones when it is the row's pattern. -/
theorem hits_initRow (w : CmdWord) : initRow.hits w = true ↔ w = 0 := by
  have h : w &&& 0xFFFFFFFFFFFF = w := by
    have : (0xFFFFFFFFFFFF : CmdWord) = BitVec.allOnes 48 := by decide
    rw [this, BitVec.and_allOnes]
  rw [OpcodeRow.hits, beq_iff_eq]
  change w &&& 0xFFFFFFFFFFFF = 0 ↔ w = 0
  rw [h]

theorem hits_isConnectedRow (w : CmdWord) : isConnectedRow.hits w = true ↔ w = 3 := by
  have h : w &&& 0xFFFFFFFFFFFF = w := by
    have : (0xFFFFFFFFFFFF : CmdWord) = BitVec.allOnes 48 := by decide
    rw [this, BitVec.and_allOnes]
  rw [OpcodeRow.hits, beq_iff_eq]
  change w &&& 0xFFFFFFFFFFFF = 3 ↔ w = 3
  rw [h]

/-- A word matches PROCESS_BYTE's row by its low byte. -/
theorem hits_processByteRow (w : CmdWord) : processByteRow.hits w = true ↔ w.toNat % 256 = 1 := by
  have h : (w &&& 0xFF).toNat = w.toNat % 256 := by
    rw [BitVec.toNat_and]
    exact Nat.and_two_pow_sub_one_eq_mod w.toNat 8
  rw [OpcodeRow.hits, beq_iff_eq, BitVec.toNat_eq]
  exact h ▸ Iff.rfl

/-- A word matches GET_CHANNEL's row by its low two bytes. -/
theorem hits_getChannelRow (w : CmdWord) : getChannelRow.hits w = true ↔ w.toNat % 65536 = 2 := by
  have h : (w &&& 0xFFFF).toNat = w.toNat % 65536 := by
    rw [BitVec.toNat_and]
    exact Nat.and_two_pow_sub_one_eq_mod w.toNat 16
  rw [OpcodeRow.hits, beq_iff_eq, BitVec.toNat_eq]
  exact h ▸ Iff.rfl

/-- The number a command word is, by its fields (R61). -/
theorem cmdOfFields_toNat (op : BitVec 2) (rsv : BitVec 6) (data : BitVec 8) (arg : BitVec 32) :
    (cmdOfFields op rsv data arg).toNat = op.toNat + 4 * rsv.toNat + 256 * data.toNat + 65536 * arg.toNat := by
  change (((arg ++ data : BitVec (32 + 8)) ++ rsv : BitVec (32 + 8 + 6)) ++ op : BitVec (32 + 8 + 6 + 2)).toNat = _
  rw [BitVec.toNat_append, BitVec.toNat_append, BitVec.toNat_append, ← Nat.shiftLeft_add_eq_or_of_lt op.isLt,
    ← Nat.shiftLeft_add_eq_or_of_lt rsv.isLt, ← Nat.shiftLeft_add_eq_or_of_lt data.isLt]
  simp only [Nat.shiftLeft_eq]
  omega

/-- A header matches a row of masked bytes when each byte matches its part (R69). -/
theorem and_headerOfFields (a l t a' l' t' : U8) :
    headerOfFields a l t &&& headerOfFields a' l' t' = headerOfFields (a &&& a') (l &&& l') (t &&& t') := by
  apply BitVec.eq_of_getLsbD_eq
  intro i hi
  rw [BitVec.getLsbD_and]
  simp only [getLsbD_headerOfFields]
  repeat' split
  all_goals rw [BitVec.getLsbD_and]

/-- Two headers are equal when their bytes are. -/
theorem headerOfFields_inj (a l t a' l' t' : U8) :
    headerOfFields a l t = headerOfFields a' l' t' ↔ a = a' ∧ l = l' ∧ t = t' := by
  constructor
  · intro h
    exact ⟨by simpa using congrArg headerAddress h, by simpa using congrArg headerLength h,
      by simpa using congrArg headerType h⟩
  · rintro ⟨rfl, rfl, rfl⟩; rfl

theorem and_ones (b : U8) : b &&& 0xFF = b := by
  have : (0xFF : U8) = BitVec.allOnes 8 := by decide
  rw [this, BitVec.and_allOnes]

/-- The RC-channels row is R120's condition. -/
theorem hits_rcChannelsRow (a l t : U8) :
    rcChannelsRow.hits (headerOfFields a l t) = isRcHeader a t := by
  have hm : rcChannelsRow.mask = headerOfFields 0xFF 0 0xFF := by decide
  have hp : rcChannelsRow.pattern = headerOfFields 0xC8 0 0x16 := by decide
  rw [OpcodeRow.hits, hm, hp, and_headerOfFields, and_ones, and_ones, Bool.eq_iff_iff, beq_iff_eq, headerOfFields_inj]
  simp [isRcHeader, Config.fcAddr, Config.typeRcChannelsPacked]

/-- The link-statistics row is a test of the type (R69). -/
theorem hits_linkStatisticsRow (a l t : U8) :
    linkStatisticsRow.hits (headerOfFields a l t) = isLinkStatisticsHeader t := by
  have hm : linkStatisticsRow.mask = headerOfFields 0 0 0xFF := by decide
  have hp : linkStatisticsRow.pattern = headerOfFields 0 0 0x14 := by decide
  rw [OpcodeRow.hits, hm, hp, and_headerOfFields, and_ones, Bool.eq_iff_iff, beq_iff_eq, headerOfFields_inj]
  simp [isLinkStatisticsHeader, Config.typeLinkStatistics]

/-- Every header matches the last row (R70). -/
theorem hits_otherRow (h : Header) : otherRow.hits h = true := by simp [OpcodeRow.hits, otherRow]

/-- The first row a header matches, by its bytes (R69). -/
theorem firstHeaderRow_ofFields (a l t : U8) :
    firstHeaderRow (headerOfFields a l t) =
      if isRcHeader a t then some rcChannelsRow.mnemonic
      else if isLinkStatisticsHeader t then some linkStatisticsRow.mnemonic else some otherRow.mnemonic := by
  simp only [firstHeaderRow, headerRows, List.find?, hits_rcChannelsRow, hits_linkStatisticsRow, hits_otherRow]
  cases isRcHeader a t <;> cases isLinkStatisticsHeader t <;> rfl

/-- Which rows a command word matches, by its number (R65). -/
theorem matchingCommandRows_eq (w : CmdWord) :
    matchingCommandRows w =
      (if w = 0 then ["INIT"] else []) ++ (if w.toNat % 256 = 1 then ["PROCESS_BYTE"] else []) ++
      (if w.toNat % 65536 = 2 then ["GET_CHANNEL"] else []) ++ (if w = 3 then ["IS_CONNECTED"] else []) := by
  have h1 := hits_initRow w
  have h2 := hits_processByteRow w
  have h3 := hits_getChannelRow w
  have h4 := hits_isConnectedRow w
  simp only [matchingCommandRows, commandRows, List.filter]
  by_cases c1 : w = 0 <;> by_cases c2 : w.toNat % 256 = 1 <;> by_cases c3 : w.toNat % 65536 = 2 <;>
    by_cases c4 : w = 3 <;> simp_all [initRow, processByteRow, getChannelRow, isConnectedRow]

namespace Laws.OwnRow

/-- A well-formed instruction's encoding takes its own row and no other. -/
def Statement (i : Instr) : Prop := i.wellFormed = true → rowsOf (encode i) = [i.mnemonic]

theorem init : Statement .init := fun _ => by decide

theorem processByte (byte : U8) (t : U32) : Statement (.processByte byte t) := by
  intro _
  have h := cmdOfFields_toNat 0b01 0 byte t
  have hb := byte.isLt
  have h1 : (cmdOfFields 0b01 0 byte t).toNat % 256 = 1 := by rw [h]; simp; omega
  have h2 : (cmdOfFields 0b01 0 byte t).toNat % 65536 ≠ 2 := by omega
  have h3 : cmdOfFields 0b01 0 byte t ≠ 0 := by intro e; rw [e] at h1; simp at h1
  have h4 : cmdOfFields 0b01 0 byte t ≠ 3 := by intro e; rw [e] at h1; simp at h1
  simp only [rowsOf, encode, matchingCommandRows_eq, h1, h2, h3, h4]
  rfl

theorem getChannel (index : U32) : Statement (.getChannel index) := by
  intro _
  have h := cmdOfFields_toNat 0b10 0 0 index
  have h1 : (cmdOfFields 0b10 0 0 index).toNat % 65536 = 2 := by rw [h]; simp
  have h2 : (cmdOfFields 0b10 0 0 index).toNat % 256 ≠ 1 := by omega
  have h3 : cmdOfFields 0b10 0 0 index ≠ 0 := by intro e; rw [e] at h1; simp at h1
  have h4 : cmdOfFields 0b10 0 0 index ≠ 3 := by intro e; rw [e] at h1; simp at h1
  simp only [rowsOf, encode, matchingCommandRows_eq, h1, h2, h3, h4]
  rfl

theorem isConnected : Statement .isConnected := fun _ => by decide

theorem frameRcChannelsPackedFc (frameLength : U8) : Statement (.frameRcChannelsPackedFc frameLength) := by
  intro _
  simp [rowsOf, encode, firstHeaderRow_ofFields, isRcHeader, Instr.mnemonic]

theorem frameLinkStatistics (address frameLength : U8) : Statement (.frameLinkStatistics address frameLength) := by
  intro _
  have h : isRcHeader address Config.typeLinkStatistics = false := by
    simp [isRcHeader, Config.typeLinkStatistics, Config.typeRcChannelsPacked]
  simp [rowsOf, encode, firstHeaderRow_ofFields, h, isLinkStatisticsHeader, Instr.mnemonic]

theorem frameOther (address frameLength frameType : U8) : Statement (.frameOther address frameLength frameType) := by
  intro hw
  have h : isRcHeader address frameType = false ∧ isLinkStatisticsHeader frameType = false := by
    simpa [Instr.wellFormed] using hw
  simp [rowsOf, encode, firstHeaderRow_ofFields, h, Instr.mnemonic]

end Laws.OwnRow

end Sys2Proof
end

