-- ==== Sys2Proof/Tests/Slice0.lean ====
section
/-! SUPPORT. Tests against 95_test_vectors.md and 30_encoding.md, and for each obligation with hypotheses a named witness:
a concrete state and operands that meet all of them together. -/

namespace Sys2Proof.Tests

open Sys2Proof Sys2Proof.Machine

/-! ### Decoding: words written out from R61 to R63, R69 and the vectors V-EN-1 to V-EN-13 -/

theorem test_decode_init : decodeCommand 0x000000000000 = .ok .init := by decide
theorem test_decode_processByte : decodeCommand 0x000003E8C801 = .ok (.processByte 0xC8 1000) := by decide
theorem test_decode_processByte_high : decodeCommand 0xFFFFFF00AD01 = .ok (.processByte 0xAD 0xFFFFFF00) := by decide
theorem test_decode_getChannel : decodeCommand 0x000000100002 = .ok (.getChannel 16) := by decide
theorem test_decode_getChannel_negative :
    decodeCommand 0x800000000002 = .ok (.getChannel (BitVec.ofInt 32 (-2147483648))) := by decide
theorem test_decode_isConnected : decodeCommand 0x000000000003 = .ok .isConnected := by decide

/-- V-EN-9 to V-EN-13. -/
theorem test_decode_reserved :
    decodeCommand 0x000000000004 = .error .reservedBits ∧ decodeCommand 0x000000000102 = .error .reservedBits ∧
    decodeCommand 0x000000010000 = .error .reservedBits ∧ decodeCommand 0x000000000103 = .error .reservedBits ∧
    decodeCommand 0x0000000000FD = .error .reservedBits := by decide

/-- R69: each row, and the rows' priority (a type 0x14 frame for 0xC8, a type 0x16 frame for another address). -/
theorem test_decode_headers :
    decodeHeader 0xC81816 = .frameRcChannelsPackedFc 0x18 ∧ decodeHeader 0xC80C14 = .frameLinkStatistics 0xC8 0x0C ∧
    decodeHeader 0xEE1816 = .frameOther 0xEE 0x18 0x16 ∧ decodeHeader 0xC81815 = .frameOther 0xC8 0x18 0x15 := by decide

/-- The opcode table's numbering: 48 bits a command, 24 bits a header, no other width. -/
theorem test_decodeTableWord :
    decodeTableWord 48 0x000003E8C801 = some (.processByte 0xC8 1000) ∧
    decodeTableWord 24 0xC81816 = some (.frameRcChannelsPackedFc 0x18) ∧
    decodeTableWord 48 4 = none ∧ decodeTableWord 16 0 = none ∧ decodeTableWord 24 0x1000000 = none := by decide

/-- R61, R63: encodings whose words the spec writes out. -/
theorem test_encode :
    encode (.processByte 0xC8 1000) = .command 0x000003E8C801 ∧
    encode (.getChannel (BitVec.ofInt 32 (-1))) = .command 0xFFFFFFFF0002 ∧ encode .init = .command 0 ∧
    encode .isConnected = .command 3 ∧ encode (.frameRcChannelsPackedFc 0x18) = .header 0xC81816 ∧
    encode (.frameLinkStatistics 0xC8 0x0C) = .header 0xC80C14 ∧
    encode (.frameOther 0xEE 0x18 0x16) = .header 0xEE1816 := by decide

/-! ### Well-formedness -/

/-- R69: a header that an earlier row takes is not that of `frameOther`, by each of the two checks. -/
theorem test_wellFormed_refuses_rcHeader : (Instr.frameOther 0xC8 0x18 0x16).wellFormed = false := by decide
theorem test_wellFormed_refuses_linkStatisticsHeader : (Instr.frameOther 0xEE 0x0C 0x14).wellFormed = false := by decide

/-! ### Small states -/

/-- What an outcome goes on to. -/
def nextOf : Host.Outcome State Fault Refusal → Option State
  | .next s => some s
  | .fault _ => none
  | .refused _ => none

/-- After an INIT, with these bytes at the start of the buffer (zeros after), `pos` and `start`. -/
def holding (bytes : List U8) (pos : Fin 65) (start : U32) : State :=
  { State.reset with
    initDone := true, buf := Vector.ofFn fun i => bytes.getD i.val 0, pos := pos, start := start }

/-- The frame of V-EX-1 without its last byte, the CRC 0xAD. -/
def exampleFrame : List U8 :=
  [0xC8, 0x18, 0x16, 0xE0, 0x03, 0x1F, 0xF8, 0xC0, 0x07, 0x3E, 0xF0, 0x81, 0x0F, 0x7C, 0xE0, 0x03, 0x1F, 0xF8, 0xC0, 0x07,
   0x3E, 0xF0, 0x81, 0x0F, 0x7C]

/-- The payload of frame F2 of P2 (V-UP-2). -/
def secondPayload : List U8 :=
  [0xAC, 0x98, 0x38, 0xF8, 0x00, 0xF0, 0xFF, 0x5F, 0xA0, 0x0F, 0x80, 0xE0, 0x03, 0x1F, 0xF8, 0xC0, 0x07, 0x3E, 0xF0, 0x81,
   0x0F, 0x7C]

/-- The raw values that frame packs (V-UP-2), the last eight all 992. -/
def secondRaws : List Raw := [172, 1811, 992, 0, 2047, 191, 1000, 1024] ++ List.replicate 8 992

/-- V-RA-4: 25 of the 26 bytes have arrived. -/
def atLastByte : State := holding exampleFrame 25 500

/-- The pending writes of V-CC-1. -/
def secondWrites : Pending :=
  #v[some 988, some 2012, some 1501, some 881, some 2160, some 1000, some 1506, some 1521]

/-- A ByteSource whose frame F2 is pending and whose next command, like the Consumer's, is IS_CONNECTED. -/
def withPending : State :=
  { holding [0xC8, 0x18, 0x16] 0 500 with
    pending := secondWrites, src := ⟨[0x000000000003], 0, []⟩, con := ⟨[0x000000000003], 0, []⟩ }

/-- Both agents have this word as their next command, and the schedule names these turns. -/
def bothHave (w : CmdWord) (schedule : List Turn) : State := (holding [] 0 0).load [w] [w] schedule

/-! ### One step of each instruction -/

/-- V-IN-2. -/
theorem test_init_clears :
    (nextOf (exec .init { holding exampleFrame 5 100 with ch := Vector.replicate 16 1501, lastValid := 1600 })).map
      (fun t => (t.pos.val, t.ch.toList, t.start, t.lastValid, t.buf[4]))
      = some (0, List.replicate 16 0, 100, 1600, 0x03) := by decide

/-- V-IN-5, V-FT-7. -/
theorem test_init_overlap :
    (nextOf (exec .init withPending)).map (fun t => (t.faults, t.pending, t.initDone))
      = some (⟨false, true, false⟩, secondWrites, true) := by decide

/-- V-RA-4: the completing byte of V-EX-1 decodes eight channels of 1501. -/
theorem test_processByte_decodes :
    (nextOf (exec (.processByte 0xAD 1100) atLastByte)).map
      (fun t => (t.pos.val, t.start, t.lastValid, t.pending.toList))
      = some (0, 500, 1100, List.replicate 8 (some 1501)) := by decide +kernel

/-- V-RA-5 and V-RA-6: an age of 1750 is in time, one of 1751 is not. -/
theorem test_processByte_timeout :
    (nextOf (exec (.processByte 0xC8 1850) (holding [0xC8, 0x1C] 5 100))).map (fun t => (t.pos.val, t.start, t.buf[5]))
      = some (6, 100, 0xC8) ∧
    (nextOf (exec (.processByte 0xC8 1851) (holding [0xEE, 0x1C] 5 100))).map (fun t => (t.pos.val, t.start, t.buf[0]))
      = some (1, 1851, 0xC8) := by decide

/-- V-GC-2 to V-GC-7. -/
theorem test_getChannel :
    ([4, 15, 16, -1, -2147483648, 2147483647].map fun i : Int =>
      (nextOf (exec (.getChannel (BitVec.ofInt 32 i)) { holding [] 0 0 with
        ch := #v[988, 2012, 1501, 881, 2160, 1000, 1506, 1521, 0, 0, 0, 0, 0, 0, 0, 0] })).map (·.src.responses))
      = [some [2160], some [0], some [0], some [0], some [0], some [0]] := by decide

/-- V-IC-1 and V-FT-3. -/
theorem test_isConnected :
    (nextOf (exec .isConnected (holding [] 0 0))).map (·.src.responses) = some [0x0001] ∧
    (nextOf (exec .isConnected State.reset)).map (fun t => (t.src.responses, t.faults))
      = some ([], ⟨true, false, false⟩) := by decide

/-- V-UP-2 with 2.6: the decoded channels of F2, at the hand-off. -/
theorem test_frameRcChannels_decodes :
    (nextOf (exec (.frameRcChannelsPackedFc 0x18)
      { holding ([0xC8, 0x18, 0x16] ++ secondPayload) 0 500 with atDispatch := some 1100 })).map
      (fun t => (t.pending, t.lastValid)) = some (secondWrites, 1100) := by decide +kernel

/-- R128: the two other rows change nothing. -/
theorem test_otherFrames_ignored :
    (nextOf (exec (.frameLinkStatistics 0xC8 0x0C) { atLastByte with atDispatch := some 1100 })) = some atLastByte ∧
    (nextOf (exec (.frameOther 0xEE 0x18 0x16) { atLastByte with atDispatch := some 1100 })) = some atLastByte := by
  decide

/-! ### CRC, unpacking, rescaling, assembling -/

/-- V-CRC-5, 11, 14, 16, 17. -/
theorem test_crc8 :
    crc8 [0xFF] = 0xF9 ∧ crc8 [0xFF, 0xFF] = 0x81 ∧ crc8 (exampleFrame.drop 2) = 0xAD ∧
    crc8 (0x16 :: 0xAD :: secondPayload.drop 1) = 0x87 ∧
    crc8 [0x14, 0x10, 0x20, 0x30, 0x40, 0x50, 0x60, 0x70, 0x80, 0x90, 0xA0] = 0x31 := by decide +kernel

/-- V-UP-2 and V-UP-6. -/
theorem test_unpack :
    ((List.range 8).map fun i => (unpack (holding ([0, 0, 0] ++ secondPayload) 0 0).buf i).toNat)
      = [172, 1811, 992, 0, 2047, 191, 1000, 1024] ∧
    ((List.range 8).map fun i =>
      (unpack (holding ([0, 0, 0] ++ (List.range 22).map (BitVec.ofNat 8)) 0 0).buf i).toNat)
      = [256, 64, 12, 642, 96, 14, 578, 80] := by decide +kernel

/-- 2.6. -/
theorem test_rescale :
    ([0, 1, 2, 100, 171, 172, 173, 191, 500, 545, 992, 1000, 1024, 1500, 1811, 1812, 2000, 2047].map fun r =>
      (rescale (BitVec.ofNat 11 r)).toNat)
      = [881, 882, 882, 943, 988, 988, 989, 1000, 1193, 1222, 1501, 1506, 1521, 1818, 2012, 2013, 2131, 2160] := by
  decide +kernel

/-- R72: RCFRAME packs the raw values of V-UP-2 into its payload. -/
theorem test_rcPayload : rcPayload secondRaws = secondPayload := by decide +kernel

/-- R71, R73: the text of a line, its label and its comment. -/
theorem test_readProgram :
    readProgram ["SRC: BYTE 0xC8, 1000 ; the first byte".toList, "CON: GETCH -1".toList]
      = some ([0x000003E8C801], [0xFFFFFFFF0002]) := by decide +kernel

/-- R72: the times of FEED are taken modulo 2^32 (log 11), and BYTE's own range is R71's. -/
theorem test_readProgram_feed_times :
    readProgram ["FEED 4294967296, -1, 0xC8, 0x18".toList] = some ([0x00000000C801, 0xFFFFFFFF1801], []) ∧
    readProgram ["BYTE 0xC8, 4294967296".toList] = none := by decide +kernel

/-- R71: an operand out of its range is no command. -/
theorem test_assemble_range : assemble (.byte 256 0) = none ∧ assemble (.getch 2147483648) = none := by decide

/-! ### Witnesses -/

theorem test_witness_InitResetsReassemblerAndChannels : State.reset.pending = noWrites := by decide

theorem test_witness_InitOverlapRecordsFault : withPending.pending ≠ noWrites := by decide

theorem test_witness_CommandsBeforeInitRecordFault :
    State.reset.initDone = false ∧ State.reset.issuer = .byteSource := by decide

theorem test_witness_InitIdempotent : ∃ t, exec .init atLastByte = .next t := ⟨_, rfl⟩

/-- Two power-ons that differ in `pos`, `ch` and `lastValid`. The run is INIT, then GET_CHANNEL 0. -/
theorem test_witness_UnspecifiedPowerOnUnobservable :
    ∃ p q : Config.PowerOn, p.buffer = q.buffer ∧ p.zeroLenPolicy = q.zeroLenPolicy ∧ p ≠ q ∧
      ∃ t, ((State.powerOn p).load [0, 2] [] []).runs 2 t ∧ t.initDone = true :=
  ⟨Config.defaultPowerOn,
    { Config.defaultPowerOn with pos := 5, ch := Vector.replicate 16 1501, lastValid := 1600 },
    rfl, rfl, by decide, _, rfl, rfl⟩

theorem test_witness_LastValidUnobservable : ∃ t, withPending.runs 9 t := ⟨_, rfl⟩

/-- The one-byte clause, and a run that takes a byte (V-EX-10). -/
theorem test_witness_StartUnobservableWhenIdle :
    ((holding [] 0 0).ByteReady ∧ (holding [] 0 0).pos.val = 0) ∧
    (bothHave 0x00001388C801 [.byteSource]).pos.val = 0 ∧
    ∃ t, (bothHave 0x00001388C801 [.byteSource]).runs 1 t ∧ t.pos.val = 1 ∧ t.start = 5000 :=
  ⟨⟨⟨rfl, rfl⟩, rfl⟩, rfl, _, rfl, rfl, rfl⟩

theorem test_witness_DecodeEncode :
    Instr.init.wellFormed = true ∧ (Instr.processByte 0xFF 0xFFFFFFFF).wellFormed = true ∧
    (Instr.getChannel 0xFFFFFFFF).wellFormed = true ∧ Instr.isConnected.wellFormed = true ∧
    (Instr.frameRcChannelsPackedFc 0).wellFormed = true ∧ (Instr.frameLinkStatistics 0xC8 0).wellFormed = true ∧
    (Instr.frameOther 0xEE 0x18 0x16).wellFormed = true ∧ (Instr.frameOther 0xC8 0x18 0x15).wellFormed = true := by decide

theorem test_witness_EncodeDecode :
    decode (.command 0x000003E8C801) = .ok (.processByte 0xC8 1000) ∧
    decode (.header 0xC81816) = .ok (.frameRcChannelsPackedFc 0x18) := by decide

/-- Each agent's clause. -/
theorem test_witness_StepRunsDecodedCommand :
    ((bothHave 3 [.byteSource]).atDispatch = none ∧ decodeCommand 3 = .ok .isConnected ∧
      (bothHave 3 [.byteSource]).turn = some .byteSource ∧
      (bothHave 3 [.byteSource]).src.program[(bothHave 3 [.byteSource]).src.position]? = some 3) ∧
    ((bothHave 3 [.consumer]).atDispatch = none ∧ (bothHave 3 [.consumer]).turn = some .consumer ∧
      (bothHave 3 [.consumer]).con.program[(bothHave 3 [.consumer]).con.position]? = some 3) := by decide

theorem test_witness_StepRunsFrameAtDispatch :
    { atLastByte with atDispatch := some (1100 : U32) }.atDispatch = some (1100 : U32) := by decide

/-- Each agent's clause. -/
theorem test_witness_RefusedWordSetsMarkOnly :
    ((bothHave 4 [.byteSource]).atDispatch = none ∧ decodeCommand 4 = .error .reservedBits ∧
      (bothHave 4 [.byteSource]).turn = some .byteSource ∧
      (bothHave 4 [.byteSource]).src.program[(bothHave 4 [.byteSource]).src.position]? = some 4) ∧
    ((bothHave 4 [.consumer]).atDispatch = none ∧ (bothHave 4 [.consumer]).turn = some .consumer ∧
      (bothHave 4 [.consumer]).con.program[(bothHave 4 [.consumer]).con.position]? = some 4) := by decide

/-- Each clause, the first and the last slot for the Retire one. -/
theorem test_witness_EveryEnabledTurnCanBeTaken :
    ((bothHave 3 []).pending = noWrites ∧ (bothHave 3 []).src.position < (bothHave 3 []).src.program.length) ∧
    (bothHave 3 []).con.position < (bothHave 3 []).con.program.length ∧
    withPending.pending[0] ≠ none ∧ withPending.pending[7] ≠ none := by decide

/-- The first slot, and the last one when it is the only one pending. -/
theorem test_witness_RetireStepPerformsOneWrite :
    (withPending.atDispatch = none ∧ withPending.turn = some (.retire 0) ∧ withPending.pending[0] = some 988) ∧
    (({ withPending with pending := noWrites.set 7 (some 1521) } : State).turn = some (.retire 7) ∧
      ({ withPending with pending := noWrites.set 7 (some 1521) } : State).pending[7] = some 1521) := by decide

theorem test_witness_PendingWritesVisibleSlotBySlot :
    withPending.atDispatch = none ∧ withPending.pending ≠ noWrites ∧ ∃ t, step withPending = .next t :=
  ⟨by decide, by decide, _, rfl⟩

/-- With no choices left, and with choices that are the Consumer's turn, a disabled turn and a Retire out of order. -/
theorem test_witness_PendingAlwaysDrains :
    (withPending.atDispatch = none ∧ withPending.schedule = [] ∧ withPending.pending ≠ noWrites) ∧
    ({ withPending with schedule := [.consumer, .byteSource, .retire 7] } : State).atDispatch = none := by decide

/-- The invariant holds in a state with a frame in progress, in one with slot writes pending, and at a full buffer. -/
theorem test_witness_StepKeepsInvariant_accumulating : atLastByte.Inv :=
  ⟨by unfold State.FrameUnfinished; decide, by unfold State.UpperChannelsZero; decide,
    by unfold State.PendingHasSource; decide, by unfold State.PositionsInProgram; decide, rfl⟩

theorem test_witness_StepKeepsInvariant_pending : withPending.Inv ∧ ∃ t, step withPending = .next t :=
  ⟨⟨by unfold State.FrameUnfinished; decide, by unfold State.UpperChannelsZero; decide,
    by unfold State.PendingHasSource; decide, by unfold State.PositionsInProgram; decide, rfl⟩, _, rfl⟩

/-- V-RA-7: the stall at the least length field that leads to it. -/
def stalledAt63 : State := holding [0xC8, 0x3F] 64 0

/-- The ages 1750 and 1751 of V-RA-7 and V-RA-8. -/
theorem test_witness_StallDropsBytesUntilTimeout :
    stalledAt63.Inv ∧ stalledAt63.ByteReady ∧ stalledAt63.reassembler = .stalled ∧
    (1750 : U32) - stalledAt63.start ≤ 1750 ∧ 1750 < (1751 : U32) - stalledAt63.start :=
  ⟨⟨by unfold State.FrameUnfinished; decide, by unfold State.UpperChannelsZero; decide,
    by unfold State.PendingHasSource; decide, by unfold State.PositionsInProgram; decide, rfl⟩,
    ⟨rfl, rfl⟩, by decide, by decide, by decide⟩

theorem test_witness_MarksNeverCleared :
    ∃ t, step { withPending with faults := ⟨true, true, true⟩, refused := true } = .next t := ⟨_, rfl⟩

theorem test_witness_ChannelsWrittenByInitOrRetire :
    (∃ t, step withPending = .next t ∧ t.ch ≠ withPending.ch) ∧
    ∃ t, step { bothHave 0 [.consumer] with ch := Vector.replicate 16 1501 } = .next t ∧ t.ch = Vector.replicate 16 0 :=
  ⟨⟨_, rfl, by decide⟩, _, rfl, by decide⟩

theorem test_witness_PositionsNeverJump : ∃ t, step (bothHave 3 [.consumer]) = .next t := ⟨_, rfl⟩

/-- V-RA-6, and V-RA-8 at a full buffer. -/
theorem test_witness_TimeoutStartsNewFrame :
    (holding [0xC8, 0x1C] 5 100).ByteReady ∧ 1750 < (1851 : U32) - (holding [0xC8, 0x1C] 5 100).start ∧
    stalledAt63.ByteReady ∧ 1750 < (1751 : U32) - stalledAt63.start :=
  ⟨⟨rfl, rfl⟩, by decide, ⟨rfl, rfl⟩, by decide⟩

theorem test_witness_IdleByteStartsFrame :
    (holding [] 0 0).ByteReady ∧ (holding [] 0 0).pos.val = 0 := ⟨⟨rfl, rfl⟩, rfl⟩

/-- V-RA-3, V-RA-14 (length field 255), and the 64th byte of V-RA-18. -/
theorem test_witness_UnfinishedFrameTakesByte :
    ((holding [0xC8, 0x18] 2 500).TakesByteAt 548 ∧ ¬ ((holding [0xC8, 0x18] 2 500).withByte 0x16 (by decide)).IsComplete) ∧
    ((holding [0xC8, 0xFF] 2 500).TakesByteAt 548 ∧ ¬ ((holding [0xC8, 0xFF] 2 500).withByte 0x16 (by decide)).IsComplete) ∧
    ((holding [0xC8, 0x3F] 63 0).TakesByteAt 1750 ∧
      ¬ ((holding [0xC8, 0x3F] 63 0).withByte 0 (by decide)).IsComplete) := by
  unfold State.TakesByteAt State.ByteReady State.IsComplete; decide

/-- V-RA-16b. -/
theorem test_witness_CrcMismatchDiscardsFrame :
    (holding [0xC8, 0x01] 2 500).TakesByteAt 548 ∧ ((holding [0xC8, 0x01] 2 500).withByte 0x16 (by decide)).IsComplete ∧
    ¬ ((holding [0xC8, 0x01] 2 500).withByte 0x16 (by decide)).CrcGood ∧
    (holding [0xC8, 0x01] 2 500).zeroLenPolicy = .literal ∧
    ((holding [0xC8, 0x01] 2 500).withByte 0x16 (by decide)).buf[1] ≠ 0 := by
  unfold State.TakesByteAt State.ByteReady State.IsComplete State.CrcGood; decide +kernel

/-- V-RA-16, and a zero-length frame of another type under the policy `literal`. -/
theorem test_witness_OtherFrameIgnored :
    ((holding [0xC8, 0x01] 2 500).TakesByteAt 548 ∧ (holding [0xC8, 0x01] 2 500).atDispatch = none ∧
      ((holding [0xC8, 0x01] 2 500).withByte 0 (by decide)).IsComplete ∧
      ((holding [0xC8, 0x01] 2 500).withByte 0 (by decide)).CrcGood ∧
      ¬ ((holding [0xC8, 0x01] 2 500).withByte 0 (by decide)).IsRcFrame ∧
      ((holding [0xC8, 0x01] 2 500).withByte 0 (by decide)).buf[1] ≠ 0) ∧
    ((holding [0xC8, 0x00] 2 500).TakesByteAt 548 ∧
      ((holding [0xC8, 0x00] 2 500).withByte 0x14 (by decide)).IsComplete ∧
      ((holding [0xC8, 0x00] 2 500).withByte 0x14 (by decide)).CrcGood ∧
      ¬ ((holding [0xC8, 0x00] 2 500).withByte 0x14 (by decide)).IsRcFrame ∧
      (holding [0xC8, 0x00] 2 500).zeroLenPolicy = .literal) := by
  unfold State.TakesByteAt State.ByteReady State.IsComplete State.CrcGood State.IsRcFrame; decide +kernel

/-- V-RA-4. -/
theorem test_witness_RcFrameDecoded :
    atLastByte.TakesByteAt 1100 ∧ atLastByte.atDispatch = none ∧ (atLastByte.withByte 0xAD (by decide)).IsComplete ∧
    (atLastByte.withByte 0xAD (by decide)).CrcGood ∧ (atLastByte.withByte 0xAD (by decide)).IsRcFrame ∧
    atLastByte.zeroLenPolicy = .literal := by
  unfold State.TakesByteAt State.ByteReady State.IsComplete State.CrcGood State.IsRcFrame; decide +kernel

/-- V-RA-15. -/
theorem test_witness_ZeroLengthFrameLiteral :
    (holding [0xC8, 0x00] 2 500).ByteReady ∧ (holding [0xC8, 0x00] 2 500).atDispatch = none ∧
    (holding [0xC8, 0x00] 2 500).zeroLenPolicy = .literal ∧ (holding [0xC8, 0x00] 2 500).pos.val = 2 ∧
    (holding [0xC8, 0x00] 2 500).buf[1] = 0 ∧ (2250 : U32) - (holding [0xC8, 0x00] 2 500).start ≤ 1750 := by
  unfold State.ByteReady; decide

/-- V-FT-6. -/
def faultPolicy : State := { holding [0xC8, 0x00] 2 500 with zeroLenPolicy := .fault }

theorem test_witness_ZeroLengthFrameFault :
    faultPolicy.ByteReady ∧ faultPolicy.zeroLenPolicy = .fault ∧ faultPolicy.pos.val = 2 ∧ faultPolicy.buf[1] = 0 ∧
    (2250 : U32) - faultPolicy.start ≤ 1750 := by
  unfold State.ByteReady; decide

theorem test_witness_LengthOneFrameNeverDecodes :
    (holding [0xC8, 0x01] 2 500).ByteReady ∧ (holding [0xC8, 0x01] 2 500).atDispatch = none ∧
    (holding [0xC8, 0x01] 2 500).pos.val = 2 ∧ (holding [0xC8, 0x01] 2 500).buf[1] = 1 ∧
    (2250 : U32) - (holding [0xC8, 0x01] 2 500).start ≤ 1750 := by
  unfold State.ByteReady; decide

theorem test_witness_ProcessByteHandsOffToHeaderRow :
    atLastByte.TakesByteAt 1100 ∧ (atLastByte.withByte 0xAD (by decide)).IsComplete ∧
    (atLastByte.withByte 0xAD (by decide)).CrcGood ∧ (atLastByte.withByte 0xAD (by decide)).buf[1] ≠ 0 := by
  unfold State.TakesByteAt State.ByteReady State.IsComplete State.CrcGood; decide +kernel

theorem test_witness_ProcessByteFrame : atLastByte.ByteReady := ⟨rfl, rfl⟩

/-- Both ways of the conclusion. -/
theorem test_witness_LastValidWrittenOnlyByDecode :
    (∃ u, exec (.processByte 0xAD 1100) atLastByte = .next u ∧ u.lastValid ≠ atLastByte.lastValid) ∧
    ∃ u, exec (.frameRcChannelsPackedFc 0x18) { atLastByte with atDispatch := some 1100 } = .next u ∧
      u.lastValid ≠ atLastByte.lastValid :=
  ⟨⟨_, rfl, by decide +kernel⟩, _, rfl, by decide⟩

theorem test_witness_ConsumerProcessByteRefused :
    ({ State.reset with issuer := .consumer } : State).issuer = .consumer := by decide

/-- V-RA-17: the longest frame that completes. -/
theorem test_witness_CheckedRangeAtMost61Bytes :
    (holding [0xC8, 0x3E, 0x16] 64 0).IsComplete ∧ (holding [0xC8, 0x3E, 0x16] 64 0).checkedRange.length = 61 := by
  unfold State.IsComplete; decide

theorem test_witness_CrcLinear : ([0x16, 0xE0] : List U8).length = ([0xFF, 0xFF] : List U8).length := by decide

/-- The first and the last bit of a byte. -/
theorem test_witness_CrcDetectsSingleBitFlip :
    (0 : Nat) < 8 ∧ (7 : Nat) < 8 ∧ crc8 ([0x16] ++ (0xAC ^^^ BitVec.twoPow 8 0) :: secondPayload.drop 1) = 0x87 := by
  decide +kernel

/-- V-EX-4: the first and the last bit of the type byte and of the last payload byte. -/
theorem test_witness_FlippedBitDiscardsFrame :
    25 = atLastByte.pos.val ∧ atLastByte.TakesByteAt 1100 ∧ atLastByte.buf[1].toNat + 2 = atLastByte.pos.val + 1 ∧
    (atLastByte.withByte 0xAD (by decide)).CrcGood ∧ 2 < atLastByte.pos.val ∧ 24 < atLastByte.pos.val ∧
    (2 : Nat) ≤ 2 ∧ (2 : Nat) ≤ 24 ∧ 0 < 8 ∧ 7 < 8 := by
  unfold State.TakesByteAt State.ByteReady State.CrcGood; decide +kernel

/-- The first and the last channel. -/
theorem test_witness_UnpackThreeByteForm : (0 : Nat) < 16 ∧ (15 : Nat) < 16 := by decide

/-- F2 of P2. -/
theorem test_witness_UnpackInvertsPacking :
    secondRaws.length = 16 ∧ ∀ j : Fin 22,
      some ((holding ([0xC8, 0x18, 0x16] ++ secondPayload) 25 0).buf[3 + j.val]'(show _ < 64 by omega))
        = (rcPayload secondRaws)[j.val]? := by decide +kernel

/-- The first and the last slot, and each side of the range (V-GC-3 to V-GC-7). -/
theorem test_witness_GetChannelAnswers :
    (holding [] 0 0).initDone = true ∧ (0 : U32).toInt = ((0 : Fin 16).val : Int) ∧
    (15 : U32).toInt = ((15 : Fin 16).val : Int) ∧ (0xFFFFFFFF : U32).toInt < 0 ∧ 15 < (16 : U32).toInt := by decide

theorem test_witness_IsConnectedAnswersOne :
    State.reset.initDone = false ∧ (holding [] 0 0).initDone = true := by decide

/-- Both clauses. -/
theorem test_witness_RcChannelsRowDecodes :
    ({ atLastByte with atDispatch := some (1100 : U32) } : State).atDispatch = some (1100 : U32) ∧
    atLastByte.atDispatch = none := by decide

theorem test_witness_FeedExpandsToProcessBytes : exampleFrame[0]? = some 0xC8 ∧ exampleFrame[24]? = some 0x7C := by decide

/-- What holds at the listed places of a sequence holds at each of its entries. -/
theorem agrees_of_fin (bytes : List U8) (buf : Vector U8 64) (n : Nat)
    (h : ∀ j : Fin n, bytes[j.val]? = buf[j.val]?) (j : Nat) (x : U8) (hj : j < n) (hx : bytes[j]? = some x) :
    buf[j]? = some x := (h ⟨j, hj⟩).symm.trans hx

/-- An entry of a sequence lies within its length. -/
theorem lt_of_entry (bytes : List U8) (n j : Nat) (x : U8) (hn : bytes.length = n) (hx : bytes[j]? = some x) : j < n :=
  hn ▸ (List.getElem?_eq_some_iff.mp hx).1

/-- V-EX-1 built by FRAME. -/
theorem test_witness_FrameBytesPassCrc :
    (exampleFrame.drop 3).length ≤ 60 ∧
    (holding (exampleFrame ++ [0xAD]) 26 0).pos.val = (exampleFrame.drop 3).length + 4 ∧
    ∀ (j : Nat) (x : U8), (frameBytes 0xC8 0x16 (exampleFrame.drop 3))[j]? = some x →
      (holding (exampleFrame ++ [0xAD]) 26 0).buf[j]? = some x :=
  ⟨by decide, by decide, fun j x hx =>
    agrees_of_fin _ _ 26 (by decide +kernel) j x (lt_of_entry _ 26 j x (by decide +kernel) hx) hx⟩

/-- The shortest and the longest payload of FRAME: frames of 4 and of 64 bytes. -/
theorem test_witness_FrameBytesPassCrc_bounds :
    (([] : List U8).length ≤ 60 ∧ (holding [] 4 0).pos.val = ([] : List U8).length + 4 ∧
      ∀ (j : Nat) (x : U8), (frameBytes 0xC8 0x14 [])[j]? = some x →
        (holding [0xC8, 0x02, 0x14, 0xAC] 4 0).buf[j]? = some x) ∧
    ((List.replicate 60 (0 : U8)).length ≤ 60 ∧ (holding [] 64 0).pos.val = (List.replicate 60 (0 : U8)).length + 4) :=
  ⟨⟨by decide, by decide, fun j x hx =>
    agrees_of_fin _ _ 4 (by decide +kernel) j x (lt_of_entry _ 4 j x (by decide +kernel) hx) hx⟩, by decide, by decide⟩

/-- F2 of P2, whose CRC byte is 0xBC. -/
theorem test_witness_RcFrameRoundTrip :
    secondRaws.length = 16 ∧ (holding ([0xC8, 0x18, 0x16] ++ secondPayload) 25 500).TakesByteAt 1100 ∧
    (holding ([0xC8, 0x18, 0x16] ++ secondPayload) 25 500).pos.val = 25 ∧
    (∀ (j : Nat) (x : U8), j < 25 → (frameBytes 0xC8 0x16 (rcPayload secondRaws))[j]? = some x →
      (holding ([0xC8, 0x18, 0x16] ++ secondPayload) 25 500).buf[j]? = some x) ∧
    (frameBytes 0xC8 0x16 (rcPayload secondRaws))[25]? = some 0xBC :=
  ⟨by decide, by unfold State.TakesByteAt State.ByteReady; decide, by decide,
    fun j x hj hx => agrees_of_fin _ _ 25 (by decide +kernel) j x hj hx, by decide +kernel⟩

end Sys2Proof.Tests
end

section
/-! PROOFS. The reassembler's full buffer (41_reassembly.md R92, R97, R98) and the statement about it. -/

namespace Sys2Proof.Machine

open Sys2Proof

/-- IDLE is `pos = 0` (R30). -/
theorem reassembler_eq_idle_iff (s : State) : s.reassembler = .idle ↔ s.pos.val = 0 := by
  unfold State.reassembler
  split
  next h => simp [h]
  next h => split <;> simp [h]

/-- STALLED is `pos = 64` (R30). -/
theorem reassembler_eq_stalled_iff (s : State) : s.reassembler = .stalled ↔ s.pos.val = 64 := by
  unfold State.reassembler
  split
  next h => simp [h]
  next => split <;> simp [*]

/-- Between commands no frame in progress is complete (R31). -/
theorem State.Inv.frameComplete_eq_false {s : State} (hs : s.Inv) (hd : s.initDone = true) :
    s.frameComplete = false := by
  rw [Bool.eq_false_iff, Ne, frameComplete_iff]
  rintro ⟨h3, htotal⟩
  have := hs.frameUnfinished hd h3
  omega

/-- While a frame is in progress no slot write is pending (R28, R95). -/
theorem State.Inv.pending_eq_noWrites {s : State} (hs : s.Inv) (hp : s.pos.val ≠ 0) : s.pending = noWrites := by
  by_contra h
  obtain ⟨-, h0, -⟩ := hs.pendingHasSource h
  exact hp h0

/-- A full buffer comes of a length field of 63 or more (R98). -/
theorem State.Inv.length_of_full {s : State} (hs : s.Inv) (hd : s.initDone = true) (hp : s.pos.val = 64) :
    63 ≤ s.buf[1].toNat := by
  have := hs.frameUnfinished hd (by omega)
  omega

/-- A byte after the timeout only starts a new frame: one byte completes none (R90 to R93). -/
theorem processByte_timeout (s : State) (b : U8) (t : U32) (h : s.timedOut t = true) :
    s.processByte b t = { s with buf := s.buf.set 0 b, pos := 1, start := t } := by
  rcases processByte_cases s b t with ⟨-, e⟩ | ⟨hc, -⟩
  · rw [e, receive_timeout s b t h]
  · simp [receive_timeout s b t h] at hc

/-- A byte in time at a full buffer that holds no complete frame changes nothing (R97). -/
theorem processByte_full (s : State) (b : U8) (t : U32) (ht : s.timedOut t = false) (hp : s.pos.val = 64)
    (hc : s.frameComplete = false) : s.processByte b t = s := by
  have hr := receive_full s b t ht hp
  rw [State.processByte, hr, hc]
  rfl

/-- INIT with no write pending leaves the reassembler IDLE (R81). -/
theorem execInit_idle (s : State) (h : s.pending = noWrites) : ∃ u, exec .init s = .next u ∧ u.reassembler = .idle := by
  rcases execInit_cases s with ⟨-, e⟩ | ⟨hne, -⟩
  · exact ⟨_, e, (reassembler_eq_idle_iff _).mpr rfl⟩
  · exact absurd h hne

/-- Settles O24: at `pos = 64` the invariant bounds the length field, keeps the frame incomplete and the writes retired. -/
theorem stallDropsBytesUntilTimeout : Obligations.StallDropsBytesUntilTimeout := by
  intro s b t hs hready hstalled
  have hfull := (reassembler_eq_stalled_iff s).mp hstalled
  have hbegun : s.pos.val ≠ 0 := by omega
  have hdone : s.initDone = true := hready.2
  refine ⟨hs.length_of_full hdone hfull, fun hin => ?_, fun hlate => ?_, ?_⟩
  · rw [exec_processByte_ready s b t hready,
      processByte_full s b t ((timedOut_eq_false s t).mpr hin) hfull (hs.frameComplete_eq_false hdone)]
  · rw [exec_processByte_ready s b t hready, processByte_timeout s b t ((timedOut_iff s t).mpr hlate)]
  · exact execInit_idle s (hs.pending_eq_noWrites hbegun)

end Sys2Proof.Machine
end

section
/-! PROOFS. The table form of the CRC (42_crc8.md R113). -/

namespace Sys2Proof.Machine

open Sys2Proof

/-- The CRC of one byte is its eight shifts: the register starts at 0 (R110). -/
theorem crc8_singleton (x : U8) : crc8 [x] = crcShifts 8 x :=
  congrArg (crcShifts 8) BitVec.zero_xor

/-- The byte step depends on the register and the byte only through their XOR (R113). -/
theorem crcByte_eq_crc8_singleton (c b : U8) : crcByte c b = crc8 [c ^^^ b] :=
  (crc8_singleton (c ^^^ b)).symm

/-- A walk of any table that holds the CRC of each single byte computes the CRC (R113). -/
theorem crc8Walk_eq_crc8 {table : List U8} (htable : ∀ x : U8, table[x.toNat]? = some (crc8 [x])) (seq : List U8) :
    crc8Walk table seq = crc8 seq := by
  have hstep : (fun c b : U8 => table.getD (c ^^^ b).toNat 0) = crcByte := by
    funext c b
    rw [crcByte_eq_crc8_singleton, List.getD_eq_getElem?_getD, htable, Option.getD_some]
  rw [crc8Walk, hstep, crc8]

/-- The spec's table lists the CRC of each single byte, in the order of the bytes (R113). -/
theorem crc8Table_eq_map : crc8Table = (List.range 256).map fun n => crc8 [BitVec.ofNat 8 n] := by
  decide +kernel

theorem crc8Table_length : crc8Table.length = 256 := by
  rw [crc8Table_eq_map, List.length_map, List.length_range]

theorem crc8Table_getElem? (x : U8) : crc8Table[x.toNat]? = some (crc8 [x]) := by
  have hx : x.toNat < 256 := x.isLt
  rw [crc8Table_eq_map, List.getElem?_map, List.getElem?_range hx, Option.map_some, BitVec.ofNat_toNat,
    BitVec.setWidth_eq]

/-- Settles O43: each step of the walk reads the CRC of the one byte `c ^ b`, which is what the byte step computes. -/
theorem crcTableForm : Obligations.CrcTableForm :=
  ⟨crc8Table_length, crc8Table_getElem?, fun seq => (crc8Walk_eq_crc8 crc8Table_getElem? seq).symm⟩

end Sys2Proof.Machine
end

section
/-! PROOFS. Frames that pass the CRC check and are not decoded (43_channel_decode.md R128). -/

namespace Sys2Proof.Machine

open Sys2Proof

/-- A frame that fails the dispatch condition only leaves the hand-off (R120, R128). -/
theorem dispatchFrame_ignored (s : State) (h : ¬ s.IsRcFrame) : s.dispatchFrame = s.setAtDispatch none := by
  rw [isRcFrame_iff] at h
  rw [State.dispatchFrame, if_neg h, State.dispatchIgnored]

/-- The completion of a frame that passes its CRC check and is ignored resets `pos` and leaves no hand-off (R95, R128). -/
theorem completeFrame_ignored (s : State) (t : U32) (hz : s.zeroLengthFault = false) (hc : s.CrcGood)
    (hr : ¬ s.IsRcFrame) : s.completeFrame t = (s.setPos 0).setAtDispatch none := by
  rw [completeFrame_good s t hz hc]
  exact dispatchFrame_ignored _ hr

/-- Settles O32: the completed frame passes through the hand-off undecoded, and the hand-off was empty before. -/
theorem otherFrameIgnored : Obligations.OtherFrameIgnored := by
  intro s b t h htakes hd hcomplete hcrc hother hpolicy
  have hz := zeroLengthFault_eq_false (s.withByte b h) hpolicy
  have hend : ((s.withByte b h).setPos 0).setAtDispatch none = { s with buf := s.buf.set s.pos.val b h, pos := 0 } := by
    rw [← hd]
    rfl
  rw [exec_processByte_ready s b t htakes.1, processByte_complete s b t htakes hcomplete,
    completeFrame_ignored _ t hz hcrc hother, hend]

end Sys2Proof.Machine
end

section
/-! PROOFS. INIT with no slot write pending (40_commands.md R81, 70_reset_and_hazards.md R151). -/

namespace Sys2Proof.Machine

open Sys2Proof

/-- INIT outside an overlap makes its three updates (R81). -/
theorem exec_init_noWrites (s : State) (h : s.pending = noWrites) :
    exec .init s = .next ((s.setPos 0).zeroChannels).setInitDone := by
  rcases execInit_cases s with ⟨-, e⟩ | ⟨hne, -⟩
  · exact e
  · exact absurd h hne

/-- When every slot holds 0, a read of any index gives 0: in range it reads a slot, out of range it is 0 (R83). -/
theorem channelAt_eq_zero_of_ch_zero {s : State} (hch : s.ch = Vector.replicate Config.nChannels 0) (index : U32) :
    s.channelAt index = 0 := by
  unfold State.channelAt
  split
  next => simp [hch]
  next => rfl

/-- Settles O2: the three updates are the record update, `pos = 0` is IDLE, and zeroed slots read 0. -/
theorem initResetsReassemblerAndChannels : Obligations.InitResetsReassemblerAndChannels := by
  intro s h
  refine ⟨((s.setPos 0).zeroChannels).setInitDone, exec_init_noWrites s h, rfl, ?_, fun index => ?_⟩
  · exact (reassembler_eq_idle_iff _).mpr rfl
  · exact channelAt_eq_zero_of_ch_zero rfl index

end Sys2Proof.Machine
end

section
/-! PROOFS. The two encodings of the block, decoded and encoded (30_encoding.md R60 to R70). -/

namespace Sys2Proof

/-- A two-bit operation code other than the first three is the fourth (R62). -/
theorem cmdOp_eq_three {w : CmdWord} (h0 : ¬ cmdOp w = 0b00) (h1 : ¬ cmdOp w = 0b01) (h2 : ¬ cmdOp w = 0b10) :
    cmdOp w = 0b11 := by
  generalize cmdOp w = op at *
  bv_omega

/-- A word that decodes is the encoding of its instruction: the fields the instruction does not carry are zero (R63, R65). -/
theorem encode_of_decodeCommand {w : CmdWord} {i : Instr} (h : decodeCommand w = .ok i) : encode i = .command w := by
  rw [← cmdOfFields_fields w]
  unfold decodeCommand at h
  split at h
  next => cases h
  next hrsv =>
    rw [not_not] at hrsv
    split at h
    next hop =>
      split at h
      next => cases h
      next hz =>
        obtain ⟨hdata, harg⟩ : cmdData w = 0 ∧ cmdArg w = 0 := by simpa using hz
        cases h
        rw [hop, hrsv, hdata, harg, encode]
    split at h
    next hop =>
      cases h
      rw [hop, hrsv, encode]
    split at h
    next hop =>
      split at h
      next => cases h
      next hdata =>
        rw [not_not] at hdata
        cases h
        rw [hop, hrsv, hdata, encode]
    next h0 h1 h2 =>
      split at h
      next => cases h
      next hz =>
        obtain ⟨hdata, harg⟩ : cmdData w = 0 ∧ cmdArg w = 0 := by simpa using hz
        cases h
        rw [cmdOp_eq_three h0 h1 h2, hrsv, hdata, harg, encode]

/-- The row a header takes encodes back to it, and no earlier row matches it (R69). -/
theorem encode_decodeHeader (a l t : U8) :
    encode (decodeHeader (headerOfFields a l t)) = .header (headerOfFields a l t) ∧
      (decodeHeader (headerOfFields a l t)).wellFormed = true := by
  rw [decodeHeader_ofFields]
  split
  next hrc =>
    obtain ⟨rfl, rfl⟩ : a = Config.fcAddr ∧ t = Config.typeRcChannelsPacked := by simpa [isRcHeader] using hrc
    exact ⟨rfl, rfl⟩
  next hrc =>
    split
    next hls =>
      obtain rfl : t = Config.typeLinkStatistics := by simpa [isLinkStatisticsHeader] using hls
      exact ⟨rfl, rfl⟩
    next hls => exact ⟨rfl, by simp [Instr.wellFormed, hrc, hls]⟩

/-- Settles O9: the fields of an encoding read back, and a well-formed `frameOther` is taken by no earlier row. -/
theorem decodeEncode : Obligations.DecodeEncode := by
  intro i hwf
  cases i with
  | init => simp [encode, decode, decodeCommand]
  | processByte byte t => simp [encode, decode, decodeCommand]
  | getChannel index => simp [encode, decode, decodeCommand]
  | isConnected => simp [encode, decode, decodeCommand]
  | frameRcChannelsPackedFc len =>
    have hrc : isRcHeader Config.fcAddr Config.typeRcChannelsPacked = true := by decide
    rw [encode, decode, decodeHeader_ofFields, if_pos hrc]
  | frameLinkStatistics a len =>
    have hrc : ¬ isRcHeader a Config.typeLinkStatistics = true := by
      simp [isRcHeader, Config.typeLinkStatistics, Config.typeRcChannelsPacked]
    have hls : isLinkStatisticsHeader Config.typeLinkStatistics = true := by decide
    rw [encode, decode, decodeHeader_ofFields, if_neg hrc, if_pos hls]
  | frameOther a len t =>
    obtain ⟨hrc, hls⟩ : isRcHeader a t = false ∧ isLinkStatisticsHeader t = false := by
      simpa [Instr.wellFormed] using hwf
    rw [encode, decode, decodeHeader_ofFields, hrc, hls]
    rfl

/-- Settles O10: a command word is its four fields and a header its three bytes, and only `frameOther` has a condition. -/
theorem encodeDecode : Obligations.EncodeDecode := by
  intro e i h
  cases e with
  | command w =>
    refine ⟨encode_of_decodeCommand h, ?_⟩
    rcases Machine.decodeCommand_is_command w i h with rfl | ⟨b, t, rfl⟩ | ⟨x, rfl⟩ | rfl <;> rfl
  | header hd =>
    obtain rfl : decodeHeader hd = i := Except.ok.inj h
    rw [← headerOfFields_fields hd]
    exact encode_decodeHeader _ _ _

/-- The rows an encoding takes are its instruction's own, for every instruction (R65, R69). -/
theorem rowsOf_encode (i : Instr) : Laws.OwnRow.Statement i := by
  cases i with
  | init => exact Laws.OwnRow.init
  | processByte byte t => exact Laws.OwnRow.processByte byte t
  | getChannel index => exact Laws.OwnRow.getChannel index
  | isConnected => exact Laws.OwnRow.isConnected
  | frameRcChannelsPackedFc len => exact Laws.OwnRow.frameRcChannelsPackedFc len
  | frameLinkStatistics a len => exact Laws.OwnRow.frameLinkStatistics a len
  | frameOther a len t => exact Laws.OwnRow.frameOther a len t

/-- A word that decodes matches the one row of its instruction (R65). -/
theorem matchingCommandRows_of_decode {w : CmdWord} {i : Instr} (h : decodeCommand w = .ok i) :
    matchingCommandRows w = [i.mnemonic] := by
  obtain ⟨henc, hwf⟩ := encodeDecode (.command w) i h
  have hrows := rowsOf_encode i hwf
  rwa [henc] at hrows

/-- When a word is refused, by its fields (R65). -/
theorem decodeCommand_eq_error_iff (w : CmdWord) :
    decodeCommand w = .error .reservedBits ↔
      cmdRsv w ≠ 0 ∨ (cmdOp w ≠ 0b01 ∧ cmdData w ≠ 0) ∨ ((cmdOp w = 0b00 ∨ cmdOp w = 0b11) ∧ cmdArg w ≠ 0) := by
  unfold decodeCommand
  by_cases hrsv : cmdRsv w = 0
  · by_cases h0 : cmdOp w = 0b00
    · simp [hrsv, h0, imp_iff_not_or]
    · by_cases h1 : cmdOp w = 0b01
      · simp [hrsv, h1]
      · by_cases h2 : cmdOp w = 0b10
        · simp [hrsv, h2]
        · simp [hrsv, cmdOp_eq_three h0 h1 h2, imp_iff_not_or]
  · simp only [ne_eq, hrsv, not_false_eq_true, if_true, true_or]

/-- A refused word matches no row: the mask of each row covers every field that must be zero for it (R65). -/
theorem matchingCommandRows_of_refused {w : CmdWord} (h : decodeCommand w = .error .reservedBits) :
    matchingCommandRows w = [] := by
  have hnum := cmdOfFields_toNat (cmdOp w) (cmdRsv w) (cmdData w) (cmdArg w)
  rw [cmdOfFields_fields] at hnum
  have hinit : w ≠ 0 := by
    rintro rfl; revert h; decide
  have hconn : w ≠ 3 := by
    rintro rfl; revert h; decide
  rw [decodeCommand_eq_error_iff] at h
  have hfields : (cmdRsv w).toNat ≠ 0 ∨ ((cmdOp w).toNat ≠ 1 ∧ (cmdData w).toNat ≠ 0) ∨
      (((cmdOp w).toNat = 0 ∨ (cmdOp w).toNat = 3) ∧ (cmdArg w).toNat ≠ 0) := by
    simpa [BitVec.toNat_eq] using h
  have hbyte : ¬ w.toNat % 256 = 1 := by omega
  have hget : ¬ w.toNat % 65536 = 2 := by omega
  rw [matchingCommandRows_eq, if_neg hinit, if_neg hbyte, if_neg hget, if_neg hconn]
  rfl

/-- Settles O11: the decoder's tests are R65's conditions, and the rows a word matches follow its decoding. -/
theorem commandDecodeIsTotal : Obligations.CommandDecodeIsTotal := by
  intro w
  refine ⟨decodeCommand_eq_error_iff w, ?_⟩
  cases h : decodeCommand w with
  | error r => cases r; exact .inl ⟨rfl, matchingCommandRows_of_refused h⟩
  | ok i => exact .inr ⟨i, rfl, matchingCommandRows_of_decode h⟩

/-- Settles O12: the table and the decoder make the same two tests, in the same order. -/
theorem headerTakesFirstMatchingRow : Obligations.HeaderTakesFirstMatchingRow := by
  intro h
  rw [← headerOfFields_fields h, firstHeaderRow_ofFields, decodeHeader_ofFields]
  split
  · rfl
  · split <;> rfl

/-- Settles O13: each example is a closed computation of the decoder. -/
theorem encodingExamples : Obligations.EncodingExamples := by
  unfold Obligations.EncodingExamples
  decide

end Sys2Proof
end

section
/-! PROOFS. Unpack against its other forms and the packing of RCFRAME, and Rescale (43_channel_decode.md R122 to R124,
30_encoding.md R72). -/

namespace Sys2Proof.Machine

open Sys2Proof

/-! The packing of RCFRAME, bit by bit. -/

/-- Byte `j` of a packed integer is its digit `j` in base 256 (R72). -/
theorem packedBytes_getElem? (n v j : Nat) (hj : j < n) :
    (packedBytes n v)[j]? = some (BitVec.ofNat 8 (v / 2 ^ (8 * j))) := by
  induction n generalizing v j with
  | zero => omega
  | succ n ih =>
    cases j with
    | zero => simp [packedBytes]
    | succ j =>
      have hdiv : v / 256 / 2 ^ (8 * j) = v / 2 ^ (8 * (j + 1)) := by
        rw [show (256 : Nat) = 2 ^ 8 from rfl, Nat.div_div_eq_div_mul, Nat.mul_succ, pow_add, Nat.mul_comm]
      rw [packedBytes, List.getElem?_cons_succ, ih _ _ (by omega), hdiv]

theorem packedBytes_length (n v : Nat) : (packedBytes n v).length = n := by
  induction n generalizing v with
  | zero => rfl
  | succ n ih => rw [packedBytes, List.length_cons, ih]

/-- RCFRAME's payload has 22 bytes (R68). -/
theorem rcPayload_length (raws : List Raw) : (rcPayload raws).length = 22 :=
  packedBytes_length 22 (packRaws raws)

theorem rcPayload_getElem? (raws : List Raw) (j : Nat) (hj : j < 22) :
    (rcPayload raws)[j]? = some (BitVec.ofNat 8 (packRaws raws / 2 ^ (8 * j))) :=
  packedBytes_getElem? 22 (packRaws raws) j hj

/-- Bit `m` of a packed integer's byte `j` is bit `8*j + m` of the integer (R72). -/
theorem testBit_packedByte (v j m : Nat) (hm : m < 8) :
    (BitVec.ofNat 8 (v / 2 ^ (8 * j))).getLsbD m = v.testBit (8 * j + m) := by
  rw [BitVec.getLsbD_ofNat, decide_eq_true hm, Bool.true_and, Nat.testBit_div_two_pow, Nat.add_comm]

/-- Bit `11*i + k` of the packed raw channels is bit `k` of channel `i` (R72). -/
theorem testBit_packRaws (raws : List Raw) (i k : Nat) (hk : k < 11) :
    (packRaws raws).testBit (11 * i + k) = (raws.getD i 0).getLsbD k := by
  induction raws generalizing i with
  | nil => simp [packRaws]
  | cons r rs ih =>
    have hr : r.toNat < 2 ^ 11 := r.isLt
    have hpack : packRaws (r :: rs) = 2 ^ 11 * packRaws rs + r.toNat := by
      rw [packRaws, Nat.add_comm]
    rw [hpack, Nat.testBit_two_pow_mul_add _ hr]
    cases i with
    | zero => simp [hk, BitVec.getLsbD]
    | succ i =>
      have hge : ¬ 11 * (i + 1) + k < 11 := by omega
      have hsub : 11 * (i + 1) + k - 11 = 11 * i + k := by omega
      rw [if_neg hge, hsub, ih, List.getD_cons_succ]

/-- Settles O50: Unpack reads bit `11*i + k` of the payload, which is where the packing put bit `k` of channel `i`. -/
theorem unpackInvertsPacking : Obligations.UnpackInvertsPacking := by
  intro raws buf hlen hbuf i
  have hi : i.val < 16 := i.isLt
  have hraw : raws[i.val]? = some (raws.getD i.val 0) := by
    rw [List.getD_eq_getElem?_getD, List.getElem?_eq_getElem (by omega), Option.getD_some]
  rw [hraw, Option.some.injEq]
  apply BitVec.eq_of_getLsbD_eq
  intro k (hk : k < 11)
  have hbyte := hbuf ⟨(11 * i.val + k) / 8, by omega⟩
  rw [rcPayload_getElem? raws _ (by omega), Option.some.injEq] at hbyte
  rw [unpack_getLsbD buf i.val k hi hk, hbyte, testBit_packedByte _ _ _ (by omega), Nat.div_add_mod,
    testBit_packRaws raws i.val k hk]

/-! The other forms of Unpack. -/

/-- Two raw values with the same eleven bits are equal, for the bits `unpack_getLsbD` gives (R122). -/
theorem unpack_eq_of_bits {buf : Vector U8 Config.frameSizeMax} {i : Nat} {x : Raw} (hi : i < 16)
    (h : ∀ (k : Nat) (hk : k < 11),
      (buf[3 + (11 * i + k) / 8]'(show _ < 64 by omega)).getLsbD ((11 * i + k) % 8) = x.getLsbD k) :
    unpack buf i = x := by
  apply BitVec.eq_of_getLsbD_eq
  intro k hk
  rw [unpack_getLsbD buf i k hi hk, h k hk]

/-- Bit `n` of three bytes, least significant first. -/
theorem getLsbD_threeBytes (a b c : U8) (n : Nat) (hn : n < 24) :
    (a.setWidth 24 ||| b.setWidth 24 <<< 8 ||| c.setWidth 24 <<< 16).getLsbD n =
      if n < 8 then a.getLsbD n else if n < 16 then b.getLsbD (n - 8) else c.getLsbD (n - 16) := by
  simp only [BitVec.getLsbD_or, BitVec.getLsbD_shiftLeft, BitVec.getLsbD_setWidth, hn, decide_true, Bool.true_and]
  split
  next h8 => simp [h8, show n < 16 by omega]
  next h8 =>
    split
    next h16 =>
      simp [h8, h16, BitVec.getLsbD_of_ge a n (by simpa using h8), show n - 8 < 24 by omega]
    next h16 =>
      simp [h8, h16, BitVec.getLsbD_of_ge a n (by simpa using h8),
        BitVec.getLsbD_of_ge b (n - 8) (show 8 ≤ n - 8 by omega), show n - 16 < 24 by omega]

/-- The mask `0x7FF` keeps the low eleven bits. -/
theorem getLsbD_mask (x : BitVec 24) (k : Nat) (hk : k < 11) : ((x &&& 0x7FF).setWidth 11).getLsbD k = x.getLsbD k := by
  have hmask : (0x7FF : BitVec 24).getLsbD k = true := by
    rw [show (0x7FF : BitVec 24) = BitVec.ofNat 24 (2 ^ 11 - 1) from rfl, BitVec.getLsbD_ofNat,
      Nat.testBit_two_pow_sub_one]
    simp [hk, show k < 24 by omega]
  rw [BitVec.getLsbD_setWidth, BitVec.getLsbD_and, hmask, decide_eq_true hk, Bool.true_and, Bool.and_true]

/-- Settles O48: bit `k` of channel `i` is in the first, second or third byte from `j` up, as `(11*i) mod 8 + k` says. -/
theorem unpackThreeByteForm : Obligations.UnpackThreeByteForm := by
  intro buf i hi
  refine unpack_eq_of_bits hi fun k hk => ?_
  rw [getLsbD_mask _ k hk, BitVec.getLsbD_ushiftRight, getLsbD_threeBytes _ _ _ _ (by omega)]
  split
  next h8 =>
    have hbyte : (11 * i + k) / 8 = 11 * i / 8 := by omega
    have hbit : (11 * i + k) % 8 = 11 * i % 8 + k := by omega
    simp only [hbyte, hbit]
  next h8 =>
    split
    next h16 =>
      have hbyte : (11 * i + k) / 8 = 11 * i / 8 + 1 := by omega
      have hbit : (11 * i + k) % 8 = 11 * i % 8 + k - 8 := by omega
      simp only [hbyte, hbit, Nat.add_assoc]
    next h16 =>
      have hbyte : (11 * i + k) / 8 = 11 * i / 8 + 2 := by omega
      have hbit : (11 * i + k) % 8 = 11 * i % 8 + k - 16 := by omega
      simp only [hbyte, hbit, Nat.add_assoc]

/-- Settles O49: each line of the layout table, bit by bit. -/
theorem unpackLayout : Obligations.UnpackLayout := by
  intro buf
  refine ⟨?_, ?_, ?_, ?_, ?_, ?_, ?_, ?_⟩ <;> refine unpack_eq_of_bits (by decide) fun k hk => ?_
  all_goals
    simp only [BitVec.getLsbD_append, BitVec.getLsbD_extractLsb]
    interval_cases k <;> rfl

/-! Rescale. -/

/-- The rounded product of Rescale has the spec's cheaper form (R123): `3278 K` is 2 less than `2048 * 10^14`, and
`2048 r + 1639` is odd, so it is no multiple of 3278 and the difference never carries. -/
theorem rescaleQuotient_eq (r : Nat) (hr : r < 2048) :
    (r * Config.scaleNumerator + Config.scaleDenominator / 2) / Config.scaleDenominator = (2048 * r + 1639) / 3278 := by
  unfold Config.scaleNumerator Config.scaleDenominator
  omega

/-- Rescale as a number: the sum does not wrap (R123). -/
theorem rescale_toNat (r : Raw) : (rescale r).toNat = 881 + (2048 * r.toNat + 1639) / 3278 := by
  have hr : r.toNat < 2048 := r.isLt
  rw [rescale, rescaleQuotient_eq _ hr, BitVec.toNat_ofNat]
  exact Nat.mod_eq_of_lt (show 881 + _ < 2 ^ 16 by omega)

/-- Settles O51: rounding half up is rounding to nearest, since `2 r K` is never an odd number of halves for `r` below 2048. -/
theorem rescaleRoundsToNearest : Obligations.RescaleRoundsToNearest := by
  intro r
  have hr : r.toNat < 2048 := r.isLt
  have hq := rescale_toNat r
  have hwrap : (881 + (2048 * r.toNat + 1639) / 3278) % 2 ^ 16 = 881 + (2048 * r.toNat + 1639) / 3278 :=
    Nat.mod_eq_of_lt (by omega)
  exact ⟨by omega, by omega, by omega, by omega, BitVec.eq_of_toNat_eq (hq.trans hwrap.symm)⟩

end Sys2Proof.Machine
end

section
/-! PROOFS. What every step keeps: the agents' sequences, the marks, the channels but for their two writers, and the invariant
(10_state.md R27 to R31, 20_memory.md R42). -/

namespace Sys2Proof.Machine

open Sys2Proof

/-! What a step can be. -/

/-- The turn in which an agent issues its next command (R141). -/
def Agent.turn : Agent → Turn
  | .byteSource => .byteSource
  | .consumer => .consumer

/-- The five ways a step answers its next state (R27, R28, R65, R96, R152). -/
inductive Stepped (s : State) : State → Prop
  | idle (hd : s.atDispatch = none) (ht : s.turn = none) : Stepped s s.takeTurn
  | dispatched (u : State) (hu : exec (decodeHeader s.frameHeader) s = .next u) (x : U32) (hd : s.atDispatch = some x) :
      Stepped s (u.finish .byteSource)
  | retired (i : Fin Config.nDecoded) (hd : s.atDispatch = none) (ht : s.turn = some (.retire i)) :
      Stepped s (s.takeTurn.retireStep i)
  | refused (a : Agent) (w : CmdWord) (hd : s.atDispatch = none) (ht : s.turn = some a.turn) (hf : s.fetch a = some w) :
      Stepped s (((s.takeTurn.setIssuer a).refuse .reservedBits).finish a)
  | command (a : Agent) (w : CmdWord) (i : Instr) (u : State) (hd : s.atDispatch = none) (ht : s.turn = some a.turn)
      (hf : s.fetch a = some w) (hw : decodeCommand w = .ok i) (hu : exec i (s.takeTurn.setIssuer a) = .next u) :
      Stepped s (u.finish a)

/-- An agent has its turn only with a command left, so there is a word to fetch (R141). -/
theorem fetch_ne_none_of_turn {s : State} {a : Agent} (h : s.turn = some a.turn) : s.fetch a ≠ none := by
  have hc : s.hasCommand a = true := by
    cases a with
    | byteSource => exact (hasCommand_iff s .byteSource).mpr ((enabled_byteSource s).mp (turn_enabled s _ h)).2
    | consumer => exact turn_enabled s _ h
  rw [State.fetch, Ne, List.getElem?_eq_none_iff, Nat.not_le]
  exact (hasCommand_iff s a).mp hc

/-- An agent's turn runs its command. -/
theorem stepped_of_agent_turn {s t : State} (a : Agent) (hd : s.atDispatch = none) (ht : s.turn = some a.turn)
    (h : runCommand a s.takeTurn = .next t) : Stepped s t := by
  rcases runCommand_cases a s.takeTurn with ⟨hf, e⟩ | ⟨w, hf, -, e⟩ | ⟨w, i, u, hf, hw, hu, e⟩ <;>
    obtain rfl := Host.Outcome.next.inj (e.symm.trans h)
  · exact absurd ((fetch_takeTurn s a).symm.trans hf) (fetch_ne_none_of_turn ht)
  · exact .refused a w hd ht hf
  · exact .command a w i u hd ht hf hw hu

theorem stepped_of_step {s t : State} (h : step s = .next t) : Stepped s t := by
  rcases step_cases s with ⟨x, hx, e⟩ | ⟨hd, ht, e⟩ | ⟨i, hd, ht, e⟩ | ⟨hd, ht, e⟩ | ⟨hd, ht, e⟩ <;> rw [e] at h
  · obtain ⟨u, hu⟩ := exec_next (decodeHeader s.frameHeader) s
    rw [runDispatch, hu] at h
    obtain rfl := Host.Outcome.next.inj h
    exact .dispatched u hu x hx
  · obtain rfl := Host.Outcome.next.inj h
    exact .idle hd ht
  · obtain rfl := Host.Outcome.next.inj h
    exact .retired i hd ht
  · exact stepped_of_agent_turn .byteSource hd ht h
  · exact stepped_of_agent_turn .consumer hd ht h

/-- Settles O18: every turn answers a next state, since every meaning does. -/
theorem stepNeverStops : Obligations.StepNeverStops := by
  intro s
  have hrun : ∀ a, ∃ t, runCommand a s.takeTurn = .next t := fun a => by
    rcases runCommand_cases a s.takeTurn with ⟨-, e⟩ | ⟨_, -, -, e⟩ | ⟨_, _, _, -, -, -, e⟩ <;> exact ⟨_, e⟩
  rcases step_cases s with ⟨x, -, e⟩ | ⟨-, -, e⟩ | ⟨i, -, -, e⟩ | ⟨-, -, e⟩ | ⟨-, -, e⟩
  · obtain ⟨u, hu⟩ := exec_next (decodeHeader s.frameHeader) s
    exact ⟨_, by rw [e, runDispatch, hu, mapNext_next]⟩
  · exact ⟨_, e⟩
  · exact ⟨_, e⟩
  · obtain ⟨t, ht⟩ := hrun .byteSource
    exact ⟨t, e.trans ht⟩
  · obtain ⟨t, ht⟩ := hrun .consumer
    exact ⟨t, e.trans ht⟩

/-! What a meaning can do to one part of the state. -/

/-- The RC-channels row at the hand-off decodes, and elsewhere does nothing (R121; log 5). -/
theorem dispatchRcChannels_cases (s : State) :
    (s.atDispatch = none ∧ s.dispatchRcChannels = s) ∨
      ∃ t, s.atDispatch = some t ∧ s.dispatchRcChannels = (s.setAtDispatch none).decodeFrame t := by
  unfold State.dispatchRcChannels
  cases s.atDispatch with
  | none => exact .inl ⟨rfl, rfl⟩
  | some t => exact .inr ⟨t, rfl, rfl⟩

/-- A frame row either leaves the state alone, or ends the hand-off, or decodes (R121, R128). -/
theorem exec_header_cases {s u : State} (h : Header) (hu : exec (decodeHeader h) s = .next u) :
    u = s ∨ u = s.setAtDispatch none ∨ ∃ t, s.atDispatch = some t ∧ u = (s.setAtDispatch none).decodeFrame t := by
  unfold decodeHeader at hu
  split at hu
  · obtain rfl := Host.Outcome.next.inj hu
    rcases dispatchRcChannels_cases s with ⟨-, e⟩ | ⟨t, ht, e⟩
    · exact .inl e
    · exact .inr (.inr ⟨t, ht, e⟩)
  · split at hu <;> obtain rfl := Host.Outcome.next.inj hu <;> exact .inr (.inl rfl)

/-- The completion of a frame records ZeroLengthFrame or no fault (R103). -/
theorem completeFrame_faults_cases (s : State) (t : U32) :
    (s.completeFrame t).faults = s.faults ∨ (s.completeFrame t).faults = s.faults.record .zeroLengthFrame := by
  rcases completeFrame_cases s t with ⟨-, e⟩ | ⟨-, -, e⟩ | ⟨-, -, -, e⟩ | ⟨-, -, -, e⟩ <;> rw [e]
  · exact .inr rfl
  · exact .inl rfl
  · exact .inl rfl
  · exact .inl rfl

theorem processByte_faults_cases (s : State) (b : U8) (t : U32) :
    (s.processByte b t).faults = s.faults ∨ (s.processByte b t).faults = s.faults.record .zeroLengthFrame := by
  rcases processByte_cases s b t with ⟨-, e⟩ | ⟨-, e⟩ <;> rw [e]
  · exact .inl (receive_faults s b t)
  · rw [← receive_faults s b t]
    exact completeFrame_faults_cases (s.receive b t) t

/-- What a command can do: INIT's reset, a recorded fault, a refusal, a response, or a byte taken (R80 to R84, R131, R132). -/
theorem exec_command_cases {s u : State} {w : CmdWord} {i : Instr} (hw : decodeCommand w = .ok i)
    (hu : exec i s = .next u) :
    (i = .init ∧ s.pending = noWrites ∧ u = ((s.setPos 0).zeroChannels).setInitDone) ∨ (∃ f, u = s.raise f) ∨
      (s.issuer = .consumer ∧ ∃ r, u = s.refuse r) ∨ (∃ v, u = s.respond v) ∨
      (s.issuer = .byteSource ∧ s.initDone = true ∧ ∃ b t, u = s.processByte b t) := by
  rcases decodeCommand_is_command w i hw with rfl | ⟨b, t, rfl⟩ | ⟨x, rfl⟩ | rfl
  · rcases execInit_cases s with ⟨hp, e⟩ | ⟨-, e⟩ <;> obtain rfl := Host.Outcome.next.inj (e.symm.trans hu)
    · exact .inl ⟨rfl, hp, rfl⟩
    · exact .inr (.inl ⟨_, rfl⟩)
  · rcases execProcessByte_cases b t s with ⟨hi, e⟩ | ⟨-, -, e⟩ | ⟨hi, hd, e⟩ <;>
      obtain rfl := Host.Outcome.next.inj (e.symm.trans hu)
    · exact .inr (.inr (.inl ⟨hi, _, rfl⟩))
    · exact .inr (.inl ⟨_, rfl⟩)
    · exact .inr (.inr (.inr (.inr ⟨hi, hd, b, t, rfl⟩)))
  · rcases execGetChannel_cases x s with ⟨-, e⟩ | ⟨-, e⟩ <;> obtain rfl := Host.Outcome.next.inj (e.symm.trans hu)
    · exact .inr (.inr (.inr (.inl ⟨_, rfl⟩)))
    · exact .inr (.inl ⟨_, rfl⟩)
  · rcases execIsConnected_cases s with ⟨-, e⟩ | ⟨-, e⟩ <;> obtain rfl := Host.Outcome.next.inj (e.symm.trans hu)
    · exact .inr (.inr (.inr (.inl ⟨_, rfl⟩)))
    · exact .inr (.inl ⟨_, rfl⟩)

/-! The marks. -/

/-- What a recorded fault, the refusal mark, `initDone` and the policy were, they still are (R29). -/
def KeepsMarks (s t : State) : Prop :=
  (∀ f, s.faults.has f = true → t.faults.has f = true) ∧ (s.refused = true → t.refused = true) ∧
    (s.initDone = true → t.initDone = true) ∧ t.zeroLenPolicy = s.zeroLenPolicy

/-- A change that writes none of them keeps the marks. -/
theorem keepsMarks_of_eq {s t : State} (hf : t.faults = s.faults) (hr : t.refused = s.refused)
    (hd : t.initDone = s.initDone) (hz : t.zeroLenPolicy = s.zeroLenPolicy) : KeepsMarks s t :=
  ⟨fun _ h => by rw [hf, h], fun h => by rw [hr, h], fun h => by rw [hd, h], hz⟩

theorem KeepsMarks.trans {s t u : State} (h : KeepsMarks s t) (h' : KeepsMarks t u) : KeepsMarks s u := by
  obtain ⟨hf, hr, hd, hz⟩ := h
  obtain ⟨hf', hr', hd', hz'⟩ := h'
  exact ⟨fun f hs => hf' f (hf f hs), fun hs => hr' (hr hs), fun hs => hd' (hd hs), hz'.trans hz⟩

theorem keepsMarks_raise (s : State) (f : Fault) : KeepsMarks s (s.raise f) :=
  ⟨fun g h => record_keeps s.faults f g h, id, id, rfl⟩

theorem keepsMarks_processByte (s : State) (b : U8) (t : U32) : KeepsMarks s (s.processByte b t) := by
  refine ⟨fun f h => ?_, fun h => by simpa using h, fun h => by simpa using h, by simp⟩
  rcases processByte_faults_cases s b t with e | e <;> rw [e]
  · exact h
  · exact record_keeps s.faults .zeroLengthFrame f h

theorem keepsMarks_command {s u : State} {w : CmdWord} {i : Instr} (hw : decodeCommand w = .ok i)
    (hu : exec i s = .next u) : KeepsMarks s u := by
  rcases exec_command_cases hw hu with ⟨-, -, rfl⟩ | ⟨f, rfl⟩ | ⟨-, r, rfl⟩ | ⟨v, rfl⟩ | ⟨-, -, b, t, rfl⟩
  · exact ⟨fun _ h => h, id, fun _ => rfl, rfl⟩
  · exact keepsMarks_raise s f
  · exact ⟨fun _ h => h, fun _ => rfl, id, rfl⟩
  · exact keepsMarks_of_eq (by simp) (by simp) (by simp) (by simp)
  · exact keepsMarks_processByte s b t

/-- Settles O25: each part of a step only adds a fault or sets a mark. -/
theorem marksNeverCleared : Obligations.MarksNeverCleared := by
  refine step_relation KeepsMarks ?_ ?_ ?_ ?_ ?_ ?_
  · intro s t a h
    exact h.trans (keepsMarks_of_eq (by simp) (by simp) (by simp) (by simp))
  · intro s a w i u _ _ _ hw hu
    have hbegin : KeepsMarks s (s.takeTurn.setIssuer a) := keepsMarks_of_eq rfl rfl rfl rfl
    exact hbegin.trans (keepsMarks_command hw hu)
  · intro s x u _ hu
    rcases exec_header_cases _ hu with rfl | rfl | ⟨t, -, rfl⟩ <;> exact keepsMarks_of_eq rfl rfl rfl rfl
  · intro s a
    exact ⟨fun _ h => h, fun _ => rfl, id, rfl⟩
  · intro s i _ _
    exact keepsMarks_of_eq (by simp) (by simp) (by simp) (by simp)
  · intro s
    exact keepsMarks_of_eq rfl rfl rfl rfl

/-! The channels. -/

/-- Of the commands only INIT writes the channels (R42). -/
theorem exec_command_ch {s u : State} {w : CmdWord} {i : Instr} (hw : decodeCommand w = .ok i) (hu : exec i s = .next u) :
    u.ch = s.ch ∨ i = .init ∧ s.pending = noWrites ∧ u.ch = Vector.replicate Config.nChannels 0 := by
  rcases exec_command_cases hw hu with ⟨hi, hp, rfl⟩ | ⟨f, rfl⟩ | ⟨-, r, rfl⟩ | ⟨v, rfl⟩ | ⟨-, -, b, t, rfl⟩
  · exact .inr ⟨hi, hp, rfl⟩
  · exact .inl rfl
  · exact .inl rfl
  · exact .inl (respond_ch s v)
  · exact .inl (processByte_ch s b t)

/-- Settles O26: no other part of a step writes `ch`. -/
theorem channelsWrittenByInitOrRetire : Obligations.ChannelsWrittenByInitOrRetire := by
  refine step_relation _ ?_ ?_ ?_ ?_ ?_ ?_
  · intro s t a h
    simpa only [finish_ch] using h
  · intro s a w i u _ hturn hf hw hu
    rcases exec_command_ch hw hu with e | ⟨rfl, hp, e⟩
    · exact .inl e
    · exact .inr (.inl ⟨a, w, hturn, hf, hw, hp, e⟩)
  · intro s x u _ hu
    rcases exec_header_cases _ hu with rfl | rfl | ⟨t, -, rfl⟩ <;> exact .inl rfl
  · intro s a
    exact .inl rfl
  · intro s i _ hturn
    obtain ⟨v, hv⟩ := (enabled_retire s i).mp (turn_enabled s _ hturn)
    refine .inr (.inr ⟨i, v, hturn, hv, ?_⟩)
    rw [retire_some s.takeTurn i v hv]
    rfl
  · intro s
    exact .inl rfl

/-! The agents. -/

/-- A completing command moves one agent's position, and nothing else of any agent (R27). -/
theorem agent_finish_cases (s : State) (a c : Agent) :
    (s.finish a).agent c = s.agent c ∨
      (s.finish a).agent c = { s.agent c with position := (s.agent c).position + 1 } := by
  rcases finish_cases s a with e | e <;> rw [e]
  · exact .inl rfl
  · cases a <;> cases c
    · exact .inr rfl
    · exact .inl rfl
    · exact .inl rfl
    · exact .inr rfl

/-- A response goes to one agent, at the end of its list (R11, R64). -/
theorem agent_respond_cases (s : State) (v : U16) (c : Agent) :
    (s.respond v).agent c = s.agent c ∨
      (s.respond v).agent c = { s.agent c with responses := (s.agent c).responses ++ [v] } := by
  unfold State.respond
  cases s.issuer <;> cases c
  · exact .inr rfl
  · exact .inl rfl
  · exact .inl rfl
  · exact .inr rfl

/-- PROCESS_BYTE leaves the agents alone (R82). -/
@[simp] theorem agent_processByte (s : State) (b : U8) (t : U32) (c : Agent) : (s.processByte b t).agent c = s.agent c := by
  cases c
  · exact processByte_src s b t
  · exact processByte_con s b t

/-- A command adds at most one response, and changes nothing else of an agent (R64). -/
theorem agent_command_cases {s u : State} {w : CmdWord} {i : Instr} (hw : decodeCommand w = .ok i)
    (hu : exec i s = .next u) (c : Agent) :
    u.agent c = s.agent c ∨ ∃ v, u.agent c = { s.agent c with responses := (s.agent c).responses ++ [v] } := by
  rcases exec_command_cases hw hu with ⟨-, -, rfl⟩ | ⟨f, rfl⟩ | ⟨-, r, rfl⟩ | ⟨v, rfl⟩ | ⟨-, -, b, t, rfl⟩
  · cases c <;> exact .inl rfl
  · cases c <;> exact .inl rfl
  · cases c <;> exact .inl rfl
  · rcases agent_respond_cases s v c with e | e
    · exact .inl e
    · exact .inr ⟨v, e⟩
  · exact .inl (agent_processByte s b t c)

/-- A frame row leaves the agents alone (R121, R128). -/
theorem agent_header {s u : State} (h : Header) (hu : exec (decodeHeader h) s = .next u) (c : Agent) :
    u.agent c = s.agent c := by
  rcases exec_header_cases h hu with rfl | rfl | ⟨t, -, rfl⟩
  · rfl
  · cases c <;> rfl
  · cases c <;> rfl

/-- A Retire leaves the agents alone (R28). -/
theorem agent_retire (s : State) (i : Fin Config.nDecoded) (c : Agent) : (s.retire i).agent c = s.agent c := by
  cases c
  · exact retire_src s i
  · exact retire_con s i

@[simp] theorem agent_takeTurn (s : State) (c : Agent) : s.takeTurn.agent c = s.agent c := by cases c <;> rfl
@[simp] theorem agent_setIssuer (s : State) (a c : Agent) : (s.setIssuer a).agent c = s.agent c := by cases c <;> rfl
@[simp] theorem agent_refuse (s : State) (r : Refusal) (c : Agent) : (s.refuse r).agent c = s.agent c := by
  cases c <;> rfl

/-- Before its completion, the body of a step leaves an agent's sequence and position alone and adds at most one response. -/
theorem positionsNeverJump_of_finish {s u : State} {a c : Agent}
    (h : u.agent c = s.agent c ∨ ∃ v, u.agent c = { s.agent c with responses := (s.agent c).responses ++ [v] }) :
    ((u.finish a).agent c).program = (s.agent c).program ∧
      (((u.finish a).agent c).position = (s.agent c).position ∨
        ((u.finish a).agent c).position = (s.agent c).position + 1) ∧
      (((u.finish a).agent c).responses = (s.agent c).responses ∨
        ∃ v, ((u.finish a).agent c).responses = (s.agent c).responses ++ [v]) := by
  rcases agent_finish_cases u a c with e | e <;> rw [e] <;> rcases h with h | ⟨v, h⟩ <;> rw [h]
  · exact ⟨rfl, .inl rfl, .inl rfl⟩
  · exact ⟨rfl, .inl rfl, .inr ⟨v, rfl⟩⟩
  · exact ⟨rfl, .inr rfl, .inl rfl⟩
  · exact ⟨rfl, .inr rfl, .inr ⟨v, rfl⟩⟩

/-- Settles O27: the body of a step only responds, and its completion only advances. -/
theorem positionsNeverJump : Obligations.PositionsNeverJump := by
  intro s t c h
  cases stepped_of_step h with
  | idle hd ht => rw [agent_takeTurn]; exact ⟨rfl, .inl rfl, .inl rfl⟩
  | dispatched u hu x hd => exact positionsNeverJump_of_finish (.inl (agent_header _ hu c))
  | retired i hd ht =>
    exact positionsNeverJump_of_finish (.inl ((agent_retire _ i c).trans (agent_takeTurn s c)))
  | refused a w hd ht hf => exact positionsNeverJump_of_finish (.inl (by simp))
  | command a w i u hd ht hf hw hu =>
    exact positionsNeverJump_of_finish (by simpa using agent_command_cases hw hu c)

/-! The invariant. -/

theorem hasCommand_of_fetch {s : State} {a : Agent} {w : CmdWord} (h : s.fetch a = some w) : s.hasCommand a = true :=
  (hasCommand_iff s a).mpr (List.getElem?_eq_some_iff.mp h).1

/-- A command keeps what an agent has left to issue (R27). -/
theorem hasCommand_command {s u : State} {w : CmdWord} {i : Instr} (hw : decodeCommand w = .ok i)
    (hu : exec i s = .next u) (a : Agent) : u.hasCommand a = s.hasCommand a := by
  rcases agent_command_cases hw hu a with e | ⟨v, e⟩ <;> rw [State.hasCommand, e, State.hasCommand]

/-- A command completes inside the agent's sequence, so the position stays in it or reaches its end (R27, R28). -/
theorem State.Inv.finish {s : State} (hs : s.Inv) {a : Agent} (hc : s.hasCommand a = true) : (s.finish a).Inv := by
  obtain ⟨hframe, hupper, hpend, ⟨hsrc, hcon⟩, hdisp⟩ := hs
  rw [hasCommand_iff] at hc
  cases a with
  | consumer => exact ⟨hframe, hupper, hpend, ⟨hsrc, hc⟩, hdisp⟩
  | byteSource =>
    unfold State.finish
    by_cases hp : s.pending = noWrites
    · rw [if_pos hp]
      exact ⟨hframe, hupper, fun hne => absurd hp hne, ⟨hc, hcon⟩, hdisp⟩
    · rw [if_neg hp]
      exact ⟨hframe, hupper, hpend, ⟨hsrc, hcon⟩, hdisp⟩

/-- A Retire writes one of the slots 0 to 7 and leaves no more pending than before (R28, R125). -/
theorem State.Inv.retire {s : State} (hs : s.Inv) (i : Fin Config.nDecoded) : (s.retire i).Inv := by
  cases hv : s.pending[i.val]'i.isLt with
  | none => rwa [retire_none s i hv]
  | some v =>
    have hne : s.pending ≠ noWrites := by
      intro h
      simp [h] at hv
    rw [retire_some s i v hv]
    refine ⟨hs.frameUnfinished, fun hd j hj => ?_, fun _ => hs.pendingHasSource hne, hs.positionsInProgram,
      hs.notAtDispatch⟩
    have hij : i.val ≠ j.val := Nat.ne_of_lt (Nat.lt_of_lt_of_le i.isLt hj)
    change (s.ch.set i.val v (Nat.lt_of_lt_of_le i.isLt (by decide)))[j.val] = 0
    rw [Vector.getElem_set_ne _ _ hij]
    exact hs.upperChannelsZero hd j hj

/-- A response changes no position and no sequence (R64). -/
theorem State.Inv.respond {s : State} (hs : s.Inv) (v : U16) : (s.respond v).Inv := by
  obtain ⟨hframe, hupper, hpend, hpos, hdisp⟩ := hs
  unfold State.respond
  cases s.issuer <;> exact ⟨hframe, hupper, hpend, hpos, hdisp⟩

/-- A completion never leaves a frame at the hand-off (R96). -/
theorem completeFrame_atDispatch {s : State} (h : s.atDispatch = none) (t : U32) :
    (s.completeFrame t).atDispatch = none := by
  rcases completeFrame_cases s t with ⟨-, e⟩ | ⟨-, -, e⟩ | ⟨-, -, -, e⟩ | ⟨-, -, -, e⟩ <;> rw [e]
  · exact h
  · exact h
  · rfl
  · rfl

/-- A byte leaves the frame unfinished, or completes it and leaves the reassembler idle (R31, R94, R95). -/
theorem State.Inv.processByte {s : State} (hs : s.Inv) (hd : s.initDone = true) (hp : s.pending = noWrites)
    (hc : s.hasCommand .byteSource = true) (b : U8) (t : U32) : (s.processByte b t).Inv := by
  have hupper : (s.processByte b t).UpperChannelsZero := by
    intro _ j hj
    simpa using hs.upperChannelsZero hd j hj
  have hpos : (s.processByte b t).PositionsInProgram := by
    unfold State.PositionsInProgram
    rw [processByte_src, processByte_con]
    exact hs.positionsInProgram
  rcases processByte_cases s b t with ⟨hinc, e⟩ | ⟨-, e⟩
  · rw [e] at hupper hpos ⊢
    refine ⟨fun _ h3 => ?_, hupper, fun hne => absurd (by simpa using hp) hne, hpos, by simpa using hs.notAtDispatch⟩
    rw [Bool.eq_false_iff, Ne, frameComplete_iff] at hinc
    omega
  · rw [e] at hupper hpos ⊢
    refine ⟨fun _ h3 => ?_, hupper, fun _ => ⟨by simpa using hd, by simp, ?_⟩, hpos, ?_⟩
    · simp at h3
    · rw [hasCommand_iff] at hc ⊢
      simpa using hc
    · exact completeFrame_atDispatch (by simpa using hs.notAtDispatch) t

/-- A command keeps the invariant; one of the ByteSource is issued with nothing pending and is in its sequence (R141). -/
theorem State.Inv.command {s u : State} {w : CmdWord} {i : Instr} (hs : s.Inv) (hw : decodeCommand w = .ok i)
    (hsrc : s.issuer = .byteSource → s.pending = noWrites ∧ s.hasCommand .byteSource = true)
    (hu : exec i s = .next u) : u.Inv := by
  rcases exec_command_cases hw hu with ⟨-, hp, rfl⟩ | ⟨f, rfl⟩ | ⟨-, r, rfl⟩ | ⟨v, rfl⟩ | ⟨hi, hd, b, t, rfl⟩
  · refine ⟨fun _ h3 => absurd h3 (show ¬ 3 ≤ 0 by decide), fun _ j _ => ?_, fun hne => absurd hp hne,
      hs.positionsInProgram, hs.notAtDispatch⟩
    exact Vector.getElem_replicate _
  · obtain ⟨hframe, hupper, hpend, hpos, hdisp⟩ := hs
    exact ⟨hframe, hupper, hpend, hpos, hdisp⟩
  · obtain ⟨hframe, hupper, hpend, hpos, hdisp⟩ := hs
    exact ⟨hframe, hupper, hpend, hpos, hdisp⟩
  · exact hs.respond v
  · obtain ⟨hp, hc⟩ := hsrc hi
    exact hs.processByte hd hp hc b t

/-- Settles O22: at power-on INIT has not completed, nothing is pending and both positions are 0. -/
theorem invariantAtPowerOn : Obligations.InvariantAtPowerOn := by
  have hinit : ∀ {P : Prop}, false = true → P := fun h => by cases h
  constructor
  · intro p
    exact ⟨fun h => hinit h, fun h => hinit h, fun h => absurd rfl h, ⟨Nat.le_refl 0, Nat.le_refl 0⟩, rfl⟩
  · intro p src con schedule
    exact ⟨fun h => hinit h, fun h => hinit h, fun h => absurd rfl h, ⟨Nat.zero_le _, Nat.zero_le _⟩, rfl⟩

/-- The invariant reads neither the schedule nor the issuer. -/
theorem State.Inv.beginCommand {s : State} (hs : s.Inv) (a : Agent) : (s.takeTurn.setIssuer a).Inv := by
  obtain ⟨hframe, hupper, hpend, hpos, hdisp⟩ := hs
  exact ⟨hframe, hupper, hpend, hpos, hdisp⟩

/-- Settles O23: each way of stepping keeps the invariant, and a command completes only where its agent has one left. -/
theorem stepKeepsInvariant : Obligations.StepKeepsInvariant := by
  intro s t hs h
  cases stepped_of_step h with
  | idle hd ht => exact hs.beginCommand s.issuer
  | dispatched u hu x hd => rw [hs.notAtDispatch] at hd; cases hd
  | retired i hd ht =>
    obtain ⟨v, hv⟩ := (enabled_retire s i).mp (turn_enabled s _ ht)
    have hne : s.pending ≠ noWrites := by
      intro hp
      simp [hp] at hv
    have hc : (s.takeTurn.retire i).hasCommand .byteSource = true := by
      rw [State.hasCommand, agent_retire, agent_takeTurn]
      exact (hs.pendingHasSource hne).2.2
    exact ((hs.beginCommand s.issuer).retire i).finish hc
  | refused a w hd ht hf =>
    have hc := hasCommand_of_fetch hf
    have hb : ((s.takeTurn.setIssuer a).refuse .reservedBits).Inv := by
      obtain ⟨hframe, hupper, hpend, hpos, hdisp⟩ := hs
      exact ⟨hframe, hupper, hpend, hpos, hdisp⟩
    exact hb.finish (by simpa [State.hasCommand] using hc)
  | command a w i u hd ht hf hw hu =>
    have hc : (s.takeTurn.setIssuer a).hasCommand a = true := by
      simpa [State.hasCommand] using hasCommand_of_fetch hf
    have hsrc : a = .byteSource → s.pending = noWrites := by
      rintro rfl
      exact ((enabled_byteSource s).mp (turn_enabled s _ ht)).1
    have hu' : u.Inv := (hs.beginCommand a).command hw (fun (ha : a = .byteSource) => ⟨hsrc ha, ha ▸ hc⟩) hu
    exact hu'.finish ((hasCommand_command hw hu a).trans hc)

end Sys2Proof.Machine
end

section
/-! PROOFS. Power-on and the four commands outside PROCESS_BYTE's own effect (40_commands.md R80 to R84, 60_exceptions.md
R131, R132, R142, 70_reset_and_hazards.md R150), the frame rows at the hand-off (R121, R128), and the parameters (R6). -/

namespace Sys2Proof.Machine

open Sys2Proof

/-- Settles O1: power-on writes these registers itself, or takes its argument. -/
theorem powerOnState : Obligations.PowerOnState :=
  fun _ => ⟨rfl, rfl, rfl, rfl, rfl, rfl⟩

/-- Settles O59: the constants as they are defined. -/
theorem parametersHaveTheSpecValues : Obligations.ParametersHaveTheSpecValues := by
  unfold Obligations.ParametersHaveTheSpecValues
  decide

/-! INIT. -/

/-- INIT during an overlap records the fault (R142). -/
theorem exec_init_overlap (s : State) (h : s.pending ≠ noWrites) : exec .init s = .next (s.raise .initOverlap) := by
  rcases execInit_cases s with ⟨hp, -⟩ | ⟨-, e⟩
  · exact absurd hp h
  · exact e

/-- The ByteSource has no turn while slot writes are pending (R141). -/
theorem turn_ne_byteSource {s : State} (h : s.pending ≠ noWrites) : s.turn ≠ some .byteSource :=
  fun ht => h ((enabled_byteSource s).mp (turn_enabled s _ ht)).1

/-- Settles O3: INIT's overlap branch, and the ByteSource's turn is enabled only with nothing pending. -/
theorem initOverlapRecordsFault : Obligations.InitOverlapRecordsFault :=
  fun s h => ⟨exec_init_overlap s h, turn_ne_byteSource h⟩

/-- Settles O5: the reset state is reset again to itself, and a fault recorded twice is recorded once. -/
theorem initIdempotent : Obligations.InitIdempotent := by
  intro s t h
  rcases execInit_cases s with ⟨hp, e⟩ | ⟨hp, e⟩ <;> obtain rfl := Host.Outcome.next.inj (e.symm.trans h)
  · rw [exec_init_noWrites _ (show (((s.setPos 0).zeroChannels).setInitDone).pending = noWrites from hp)]
    rfl
  · rw [exec_init_overlap _ (show (s.raise .initOverlap).pending ≠ noWrites from hp)]
    rfl

/-! The other commands before INIT, and the queries after it. -/

theorem exec_getChannel_ready (x : U32) (s : State) (h : s.initDone = true) :
    exec (.getChannel x) s = .next (s.respond (s.channelAt x)) := by
  rcases execGetChannel_cases x s with ⟨-, e⟩ | ⟨hd, -⟩
  · exact e
  · rw [h] at hd; cases hd

theorem exec_getChannel_unready (x : U32) (s : State) (h : s.initDone = false) :
    exec (.getChannel x) s = .next (s.raise .notInitialized) := by
  rcases execGetChannel_cases x s with ⟨hd, -⟩ | ⟨-, e⟩
  · rw [h] at hd; cases hd
  · exact e

theorem exec_isConnected_ready (s : State) (h : s.initDone = true) :
    exec .isConnected s = .next (s.respond 0x0001) := by
  rcases execIsConnected_cases s with ⟨-, e⟩ | ⟨hd, -⟩
  · exact e
  · rw [h] at hd; cases hd

theorem exec_isConnected_unready (s : State) (h : s.initDone = false) :
    exec .isConnected s = .next (s.raise .notInitialized) := by
  rcases execIsConnected_cases s with ⟨hd, -⟩ | ⟨-, e⟩
  · rw [h] at hd; cases hd
  · exact e

theorem exec_processByte_unready (b : U8) (t : U32) (s : State) (hi : s.issuer = .byteSource) (h : s.initDone = false) :
    exec (.processByte b t) s = .next (s.raise .notInitialized) := by
  rcases execProcessByte_cases b t s with ⟨hc, -⟩ | ⟨-, -, e⟩ | ⟨-, hd, -⟩
  · rw [hi] at hc; cases hc
  · exact e
  · rw [h] at hd; cases hd

theorem exec_processByte_consumer (b : U8) (t : U32) (s : State) (h : s.issuer = .consumer) :
    exec (.processByte b t) s = .next (s.refuse .wrongAgent) := by
  rcases execProcessByte_cases b t s with ⟨-, e⟩ | ⟨hi, -⟩ | ⟨hi, -⟩
  · exact e
  · rw [h] at hi; cases hi
  · rw [h] at hi; cases hi

/-- Settles O4: each of the three commands first checks `initDone`. -/
theorem commandsBeforeInitRecordFault : Obligations.CommandsBeforeInitRecordFault :=
  fun s h => ⟨fun hi b t => exec_processByte_unready b t s hi h, fun x => exec_getChannel_unready x s h,
    exec_isConnected_unready s h⟩

/-- Settles O41: the issuer is looked at before `initDone`. -/
theorem consumerProcessByteRefused : Obligations.ConsumerProcessByteRefused :=
  fun s b t h => exec_processByte_consumer b t s h

/-- GET_CHANNEL of an index in range reads its slot (R83). -/
theorem channelAt_eq_slot {s : State} {index : U32} {i : Fin Config.nChannels} (h : index.toInt = (i.val : Int)) :
    s.channelAt index = s.ch[i.val] := by
  rw [State.channelAt, (channelSlot_eq_some index i).mpr h]

/-- GET_CHANNEL of an index out of range reads 0 (R83). -/
theorem channelAt_eq_zero {s : State} {index : U32} (h : index.toInt < 0 ∨ 15 < index.toInt) : s.channelAt index = 0 := by
  have hnone : channelSlot index = none := (channelSlot_eq_none index).mpr (h.imp id fun hi => hi)
  rw [State.channelAt, hnone]

/-- Settles O52: the response is what `channelAt` reads. -/
theorem getChannelAnswers : Obligations.GetChannelAnswers :=
  fun s index h => ⟨s.channelAt index, exec_getChannel_ready index s h, fun _ => channelAt_eq_slot, channelAt_eq_zero⟩

/-- Settles O53: the word is a closed decoding, and the two answers are the two branches of the `initDone` check. -/
theorem isConnectedAnswersOne : Obligations.IsConnectedAnswersOne :=
  ⟨by decide, fun s => ⟨exec_isConnected_unready s, exec_isConnected_ready s⟩⟩

/-! The frame rows. -/

/-- Settles O54: the row looks only at whether a frame stands at the hand-off. -/
theorem rcChannelsRowDecodes : Obligations.RcChannelsRowDecodes := by
  intro s len
  refine ⟨fun t ht => congrArg Host.Outcome.next ?_, fun hn => congrArg Host.Outcome.next ?_⟩
  · rcases dispatchRcChannels_cases s with ⟨h, -⟩ | ⟨t', ht', e⟩
    · rw [ht] at h; cases h
    · obtain rfl : t = t' := Option.some.inj (ht.symm.trans ht')
      exact e
  · rcases dispatchRcChannels_cases s with ⟨-, e⟩ | ⟨t', ht', -⟩
    · exact e
    · rw [hn] at ht'; cases ht'

/-- Settles O55: both rows take the frame from the hand-off and do nothing else. -/
theorem otherRowsIgnored : Obligations.OtherRowsIgnored :=
  fun _ _ _ _ => ⟨rfl, rfl⟩

end Sys2Proof.Machine
end

section
/-! PROOFS. One step: the command it runs, the turn it takes, and how pending slot writes retire (60_exceptions.md R141,
10_state.md R28, 20_memory.md R48, R49, R52). -/

namespace Sys2Proof.Machine

open Sys2Proof

/-- A step in an agent's turn runs the agent's command (R141). -/
theorem step_of_agent_turn {s : State} (a : Agent) (hd : s.atDispatch = none) (ht : s.turn = some a.turn) :
    step s = runCommand a s.takeTurn := by
  rw [step_of_turn s hd, ht]
  cases a <;> rfl

/-- Settles O14: the agent fetches the word at its position. -/
theorem stepRunsDecodedCommand : Obligations.StepRunsDecodedCommand := by
  intro s w i hd hw
  constructor
  · intro ht hf
    rw [step_of_agent_turn .byteSource hd ht]
    exact runCommand_of_decode .byteSource s.takeTurn w i hf hw
  · intro ht hf
    rw [step_of_agent_turn .consumer hd ht]
    exact runCommand_of_decode .consumer s.takeTurn w i hf hw

/-- Settles O15: the header is the buffer's first three bytes. -/
theorem stepRunsFrameAtDispatch : Obligations.StepRunsFrameAtDispatch :=
  fun s t h => step_of_dispatch s t h

/-- With nothing pending the ByteSource's command completes at once (R27, R52). -/
theorem finish_byteSource_noWrites {s : State} (h : s.pending = noWrites) :
    s.finish .byteSource = s.advance .byteSource :=
  if_pos h

/-- While writes are pending the ByteSource's command does not complete (R28). -/
theorem finish_byteSource_pending {s : State} (h : s.pending ≠ noWrites) : s.finish .byteSource = s :=
  if_neg h

/-- Settles O16: the refused word completes at once, since an agent that has its turn does not hold. -/
theorem refusedWordSetsMarkOnly : Obligations.RefusedWordSetsMarkOnly := by
  intro s w hd hw
  constructor
  · intro ht hf
    have hp : s.pending = noWrites := ((enabled_byteSource s).mp (turn_enabled s _ ht)).1
    rw [step_of_agent_turn .byteSource hd ht, runCommand_of_refusal .byteSource s.takeTurn w hf hw,
      finish_byteSource_noWrites (s := (s.takeTurn.setIssuer .byteSource).refuse .reservedBits) hp]
    rfl
  · intro ht hf
    rw [step_of_agent_turn .consumer hd ht, runCommand_of_refusal .consumer s.takeTurn w hf hw]
    rfl

/-- An enabled choice of the environment is the turn taken (R141). -/
theorem turn_of_enabled {s : State} {x : Turn} {rest : List Turn} (hs : s.schedule = x :: rest) (h : s.enabled x = true) :
    s.turn = some x := by
  unfold State.turn
  rw [hs]
  exact if_pos h

/-- Settles O17: what enables a turn does not read the schedule. -/
theorem everyEnabledTurnCanBeTaken : Obligations.EveryEnabledTurnCanBeTaken := by
  intro s rest
  refine ⟨fun hp hc => ?_, fun hc => ?_, fun i hi => ?_⟩
  · exact turn_of_enabled rfl ((enabled_byteSource _).mpr ⟨hp, hc⟩)
  · exact turn_of_enabled rfl ((enabled_consumer _).mpr hc)
  · exact turn_of_enabled rfl ((enabled_retire _ i).mpr (Option.ne_none_iff_exists'.mp hi))

/-- A step in a Retire turn (R28). -/
theorem step_of_retire_turn {s : State} {i : Fin Config.nDecoded} (hd : s.atDispatch = none)
    (ht : s.turn = some (.retire i)) : step s = .next (s.takeTurn.retireStep i) := by
  rw [step_of_turn s hd, ht]
  rfl

/-- Settles O19: the write is performed, leaves the set, and the ByteSource's command completes if the set is then empty. -/
theorem retireStepPerformsOneWrite : Obligations.RetireStepPerformsOneWrite := by
  intro s i v hd ht hv
  refine ⟨_, step_of_retire_turn hd ht, ?_⟩
  rw [State.retireStep, retire_some s.takeTurn i v hv]
  by_cases hlast : s.pending.set i.val none = noWrites
  · rw [finish_byteSource_noWrites hlast, if_pos hlast]
    exact ⟨rfl, rfl, rfl, rfl⟩
  · rw [finish_byteSource_pending hlast, if_neg hlast]
    exact ⟨rfl, rfl, rfl, rfl⟩

/-! Pending slot writes. -/

/-- The value slot `j` holds once its pending write, if it has one, has retired (R28). -/
def State.settledSlot (s : State) (j : Fin Config.nDecoded) : U16 :=
  (s.pending[j.val]'j.isLt).getD (s.ch[j.val]'(Nat.lt_trans j.isLt (by decide)))

/-- What every step leaves alone while slot writes are pending: the reassembler, the ByteSource's responses, the slots no
frame decodes, and the value each of the others settles at (R48, R49, R52). -/
structure Draining (s t : State) : Prop where
  buf : t.buf = s.buf
  pos : t.pos = s.pos
  start : t.start = s.start
  lastValid : t.lastValid = s.lastValid
  responses : t.src.responses = s.src.responses
  settled : ∀ j, t.settledSlot j = s.settledSlot j
  upper : ∀ (i : Nat) (hi : i < Config.nChannels), Config.nDecoded ≤ i → t.ch[i]'hi = s.ch[i]'hi
  atDispatch : t.atDispatch = none

/-- A step part that writes none of these drains nothing. -/
theorem draining_of_eq {s t : State} (hd : s.atDispatch = none) (hbuf : t.buf = s.buf) (hpos : t.pos = s.pos)
    (hstart : t.start = s.start) (hlast : t.lastValid = s.lastValid) (hresp : t.src.responses = s.src.responses)
    (hch : t.ch = s.ch) (hpend : t.pending = s.pending) (hdisp : t.atDispatch = s.atDispatch) : Draining s t where
  buf := hbuf
  pos := hpos
  start := hstart
  lastValid := hlast
  responses := hresp
  settled j := by simp only [State.settledSlot, hch, hpend]
  upper i hi _ := by simp only [hch]
  atDispatch := hdisp.trans hd

theorem Draining.trans {s t u : State} (h : Draining s t) (h' : Draining t u) : Draining s u where
  buf := h'.buf.trans h.buf
  pos := h'.pos.trans h.pos
  start := h'.start.trans h.start
  lastValid := h'.lastValid.trans h.lastValid
  responses := h'.responses.trans h.responses
  settled j := (h'.settled j).trans (h.settled j)
  upper i hi hj := (h'.upper i hi hj).trans (h.upper i hi hj)
  atDispatch := h'.atDispatch

theorem finish_src_responses (s : State) (a : Agent) : (s.finish a).src.responses = s.src.responses := by
  change ((s.finish a).agent .byteSource).responses = (s.agent .byteSource).responses
  rcases agent_finish_cases s a .byteSource with e | e <;> rw [e]

/-- The completion of a command drains nothing. -/
theorem Draining.finish {s t : State} (h : Draining s t) (a : Agent) : Draining s (t.finish a) :=
  h.trans (draining_of_eq h.atDispatch (by simp) (by simp) (by simp) (by simp) (finish_src_responses t a) (by simp)
    (by simp) (by simp))

/-- A command of the Consumer records a fault, is refused, or answers the Consumer (R132, R140, R142). -/
theorem draining_consumer_command {s u : State} {w : CmdWord} {i : Instr} (hd : s.atDispatch = none)
    (hp : s.pending ≠ noWrites) (hi : s.issuer = .consumer) (hw : decodeCommand w = .ok i) (hu : exec i s = .next u) :
    Draining s u ∧ u.pending = s.pending ∧ u.schedule = s.schedule := by
  rcases exec_command_cases hw hu with ⟨-, hp', -⟩ | ⟨f, rfl⟩ | ⟨-, r, rfl⟩ | ⟨v, rfl⟩ | ⟨hi', -⟩
  · exact absurd hp' hp
  · exact ⟨draining_of_eq hd rfl rfl rfl rfl rfl rfl rfl rfl, rfl, rfl⟩
  · exact ⟨draining_of_eq hd rfl rfl rfl rfl rfl rfl rfl rfl, rfl, rfl⟩
  · have hsrc : (s.respond v).src = s.src := by rw [State.respond, hi, setAgent_consumer_src]
    exact ⟨draining_of_eq hd (by simp) (by simp) (by simp) (by simp) (by rw [hsrc]) (by simp) (by simp) (by simp),
      by simp, by simp⟩
  · rw [hi] at hi'; cases hi'

/-- The Retire of a slot performs its write, so the slot settles at the same value (R28). -/
theorem draining_retire {s : State} (hd : s.atDispatch = none) (i : Fin Config.nDecoded) : Draining s (s.retire i) := by
  cases hv : s.pending[i.val]'i.isLt with
  | none =>
    rw [retire_none s i hv]
    exact draining_of_eq hd rfl rfl rfl rfl rfl rfl rfl rfl
  | some v =>
    rw [retire_some s i v hv]
    refine ⟨rfl, rfl, rfl, rfl, rfl, fun j => ?_, fun k hk hge => ?_, hd⟩
    · by_cases hij : i = j
      · subst hij
        simp [State.settledSlot, hv]
      · have hne : i.val ≠ j.val := fun h => hij (Fin.ext h)
        simp [State.settledSlot, hne]
    · have hne : i.val ≠ k := Nat.ne_of_lt (Nat.lt_of_lt_of_le i.isLt hge)
      simp [hne]

/-- A step while slot writes are pending drains, uses up one choice of the schedule, and either retires a pending slot or
leaves the set alone (R28, R141). -/
theorem drain_step {s t : State} (hd : s.atDispatch = none) (hp : s.pending ≠ noWrites) (h : step s = .next t) :
    Draining s t ∧ t.schedule = s.schedule.tail ∧
      ((∃ i, s.turn = some (.retire i) ∧ t.pending = s.pending.set i.val none ∧ t.con = s.con) ∨
        ((∀ i, s.turn ≠ some (.retire i)) ∧ t.pending = s.pending)) := by
  have hbegin : Draining s (s.takeTurn.setIssuer .consumer) :=
    draining_of_eq hd rfl rfl rfl rfl rfl rfl rfl rfl
  have htake : Draining s s.takeTurn := draining_of_eq hd rfl rfl rfl rfl rfl rfl rfl rfl
  have hsource : ∀ a : Agent, s.turn = some a.turn → a = .consumer := fun a ht => by
    cases a with
    | byteSource => exact absurd ht (turn_ne_byteSource hp)
    | consumer => rfl
  cases stepped_of_step h with
  | idle hd' ht => exact ⟨htake, rfl, .inr ⟨fun i hi => (nomatch ht.symm.trans hi), rfl⟩⟩
  | dispatched u hu x hx => rw [hd] at hx; cases hx
  | retired i hd' ht =>
    obtain ⟨v, hv⟩ := (enabled_retire s i).mp (turn_enabled s _ ht)
    have hpend : (s.takeTurn.retire i).pending = s.pending.set i.val none := by
      rw [retire_some s.takeTurn i v hv]
      rfl
    have hcon : (s.takeTurn.retireStep i).con = s.con := by
      rcases finish_cases (s.takeTurn.retire i) .byteSource with e | e <;> rw [State.retireStep, e]
      · exact retire_con _ i
      · exact retire_con _ i
    refine ⟨(htake.trans (draining_retire (s := s.takeTurn) hd i)).finish .byteSource, ?_, .inl ⟨i, ht, ?_, hcon⟩⟩
    · rw [State.retireStep, finish_schedule, retire_schedule]
      rfl
    · rw [State.retireStep, finish_pending, hpend]
  | refused a w hd' ht hf =>
    obtain rfl := hsource a ht
    have hrefuse : Draining s ((s.takeTurn.setIssuer .consumer).refuse .reservedBits) :=
      draining_of_eq hd rfl rfl rfl rfl rfl rfl rfl rfl
    exact ⟨hrefuse.finish .consumer, rfl, .inr ⟨fun i hi => (nomatch ht.symm.trans hi), rfl⟩⟩
  | command a w i u hd' ht hf hw hu =>
    obtain rfl := hsource a ht
    obtain ⟨hdrain, hpend, hsched⟩ := draining_consumer_command (s := s.takeTurn.setIssuer .consumer) hd hp rfl hw hu
    refine ⟨(hbegin.trans hdrain).finish .consumer, ?_, .inr ⟨fun i hi => (nomatch ht.symm.trans hi), ?_⟩⟩
    · rw [finish_schedule, hsched]
      rfl
    · rw [finish_pending, hpend]
      rfl

/-- Settles O20: the step drains, and the one slot it can write takes the value pending for it (`ChannelsWrittenByInitOrRetire`). -/
theorem pendingWritesVisibleSlotBySlot : Obligations.PendingWritesVisibleSlotBySlot := by
  intro s t hd hp h
  obtain ⟨hdrain, -, -⟩ := drain_step hd hp h
  refine ⟨hdrain.buf, hdrain.pos, hdrain.start, hdrain.lastValid, hdrain.responses, fun j => ?_, hdrain.upper⟩
  rcases channelsWrittenByInitOrRetire s t h with e | ⟨a, w, -, -, -, hnone, -⟩ | ⟨i, v, -, hv, e⟩
  · exact .inl (by simp only [e])
  · exact absurd hnone hp
  · by_cases hij : i = j
    · subst hij
      exact .inr (by simp only [e, Vector.getElem_set_self, hv])
    · have hne : i.val ≠ j.val := fun h => hij (Fin.ext h)
      exact .inl (by simp only [e, Vector.getElem_set_ne _ _ hne])

/-! How long the writes take to retire. -/

/-- The slots with a write pending. -/
def pendingSlots (p : Pending) : Finset (Fin Config.nDecoded) :=
  Finset.univ.filter fun i => (p[i.val]'i.isLt).isSome

/-- Steps that suffice for `pending` to be empty once: one for each choice of the environment and each pending slot. -/
def State.drainBound (s : State) : Nat := s.schedule.length + (pendingSlots s.pending).card

theorem drainBound_le (s : State) : s.drainBound ≤ s.schedule.length + 8 :=
  Nat.add_le_add_left (Finset.card_filter_le _ _) _

/-- A Retire of a pending slot leaves one fewer. -/
theorem card_pendingSlots_set {p : Pending} {i : Fin Config.nDecoded} {v : U16} (h : p[i.val]'i.isLt = some v) :
    (pendingSlots (p.set i.val none)).card < (pendingSlots p).card := by
  refine Finset.card_lt_card ⟨fun j hj => ?_, fun hsub => ?_⟩
  · by_cases hij : i = j
    · subst hij
      simp [pendingSlots, h]
    · have hne : i.val ≠ j.val := fun h => hij (Fin.ext h)
      simpa [pendingSlots, hne] using hj
  · have hi : i ∈ pendingSlots p := by simp [pendingSlots, h]
    simpa [pendingSlots] using hsub hi

/-- With no choices left the next turn is a Retire (log 6). -/
theorem turn_retire_of_schedule_nil {s : State} (hs : s.schedule = []) (hp : s.pending ≠ noWrites) :
    ∃ i, s.turn = some (.retire i) := by
  have hturn : s.turn = s.fairTurn := by
    unfold State.turn
    rw [hs]
  rw [hturn]
  unfold State.fairTurn
  split
  next i _ => exact ⟨i, rfl⟩
  next hnone =>
    refine absurd ((eq_noWrites_iff s.pending).mpr fun i => ?_) hp
    have hi := List.find?_eq_none.mp hnone i (List.mem_finRange i)
    simpa [State.enabled] using hi

/-- Each step while writes are pending brings the bound down: it uses up a choice, or retires a slot if none is left. -/
theorem drainBound_step {s t : State} (hd : s.atDispatch = none) (hp : s.pending ≠ noWrites) (h : step s = .next t) :
    t.drainBound < s.drainBound := by
  obtain ⟨-, hsched, hpend⟩ := drain_step hd hp h
  unfold State.drainBound
  rw [hsched, List.length_tail]
  rcases hpend with ⟨i, ht, e, -⟩ | ⟨ht, e⟩
  · obtain ⟨v, hv⟩ := (enabled_retire s i).mp (turn_enabled s _ ht)
    have := card_pendingSlots_set hv
    rw [e]
    omega
  · have hne : s.schedule ≠ [] := fun hnil => by
      obtain ⟨i, hi⟩ := turn_retire_of_schedule_nil hnil hp
      exact ht i hi
    have := List.length_pos_iff.mpr hne
    rw [e]
    omega

/-- A run of one more step goes on from the next state. -/
theorem runs_succ_iff {s t u : State} {k : Nat} (h : step s = .next t) : s.runs (k + 1) u ↔ t.runs k u := by
  have hstep : core.step s = .next t := h
  have hrun : core.run (k + 1) s = core.run k t := by simp only [Host.Core.run, hstep]
  rw [State.runs, hrun, State.runs]

/-- Within the bound there is a moment with nothing pending, reached by draining only. -/
theorem exists_drained (n : Nat) (s : State) (hd : s.atDispatch = none) (hn : s.drainBound ≤ n) :
    ∃ (k : Nat) (t : State), k ≤ n ∧ s.runs k t ∧ t.pending = noWrites ∧ Draining s t ∧
      (s.schedule = [] → t.con = s.con) := by
  induction n generalizing s with
  | zero =>
    by_cases hp : s.pending = noWrites
    · exact ⟨0, s, Nat.le_refl 0, rfl, hp, draining_of_eq hd rfl rfl rfl rfl rfl rfl rfl rfl, fun _ => rfl⟩
    · obtain ⟨t, ht⟩ := stepNeverStops s
      have := drainBound_step hd hp ht
      omega
  | succ n ih =>
    by_cases hp : s.pending = noWrites
    · exact ⟨0, s, Nat.zero_le _, rfl, hp, draining_of_eq hd rfl rfl rfl rfl rfl rfl rfl rfl, fun _ => rfl⟩
    · obtain ⟨t, ht⟩ := stepNeverStops s
      have hlt := drainBound_step hd hp ht
      obtain ⟨hdrain, hsched, hpend⟩ := drain_step hd hp ht
      obtain ⟨k, u, hk, hr, hu, hdrain', hcon⟩ := ih t hdrain.atDispatch (by omega)
      refine ⟨k + 1, u, by omega, (runs_succ_iff ht).mpr hr, hu, hdrain.trans hdrain', fun hnil => ?_⟩
      rw [hcon (by rw [hsched, hnil]; rfl)]
      rcases hpend with ⟨i, -, -, e⟩ | ⟨hno, -⟩
      · exact e
      · obtain ⟨i, hi⟩ := turn_retire_of_schedule_nil hnil hp
        exact absurd hi (hno i)

/-- Settles O21: once nothing is pending, the value a slot settles at is the value it holds. -/
theorem pendingAlwaysDrains : Obligations.PendingAlwaysDrains := by
  intro s hd
  obtain ⟨k, t, hk, hr, hp, hdrain, hcon⟩ := exists_drained _ s hd (drainBound_le s)
  refine ⟨k, t, hk, hr, hp, fun i => ?_, hdrain.upper, hdrain.responses, hcon⟩
  have hslot := hdrain.settled i
  have hnone : t.pending[i.val]'i.isLt = none := (eq_noWrites_iff t.pending).mp hp i
  rwa [State.settledSlot, State.settledSlot, hnone, Option.getD_none] at hslot

end Sys2Proof.Machine
end

section
/-! PROOFS. The CRC is linear, its register loses nothing, and the examples of the rule (42_crc8.md R110, R111, R114, R115). -/

namespace Sys2Proof.Machine

open Sys2Proof

/-- The byte step is linear in register and byte together (R114). -/
theorem crcByte_xor (c d a b : U8) : crcByte (c ^^^ d) (a ^^^ b) = crcByte c a ^^^ crcByte d b := by
  have hswap : c ^^^ d ^^^ (a ^^^ b) = c ^^^ a ^^^ (d ^^^ b) := by ac_rfl
  rw [crcByte, crcByte, crcByte, hswap, crcShifts_xor]

/-- From any two registers, over sequences of equal length, the walk is linear (R114). -/
theorem foldl_crcByte_xor (c d : U8) (a b : List U8) (h : a.length = b.length) :
    (List.zipWith (· ^^^ ·) a b).foldl crcByte (c ^^^ d) = a.foldl crcByte c ^^^ b.foldl crcByte d := by
  induction a generalizing b c d with
  | nil =>
    obtain rfl := List.length_eq_zero_iff.mp h.symm
    rfl
  | cons x xs ih =>
    cases b with
    | nil => cases h
    | cons y ys =>
      rw [List.zipWith_cons_cons, List.foldl_cons, List.foldl_cons, List.foldl_cons, crcByte_xor,
        ih _ _ ys (Nat.succ.inj h)]

/-- Settles O44: both walks start at the register 0, which is its own exclusive or. -/
theorem crcLinear : Obligations.CrcLinear := by
  intro a b h
  exact foldl_crcByte_xor Config.crcInit Config.crcInit a b h

/-- The byte step distinguishes registers and bytes that differ (R114). -/
theorem crcByte_eq_iff (c d a b : U8) : crcByte c a = crcByte d b ↔ c ^^^ a = d ^^^ b := by
  rw [crcByte, crcByte, ← BitVec.xor_eq_zero_iff, ← crcShifts_xor]
  exact (crcShifts_eq_zero 8 _).trans BitVec.xor_eq_zero_iff

/-- The walk over one sequence distinguishes the registers it starts from (R114). -/
theorem foldl_crcByte_inj (seq : List U8) (c d : U8) (h : seq.foldl crcByte c = seq.foldl crcByte d) : c = d := by
  induction seq generalizing c d with
  | nil => exact h
  | cons x xs ih => exact (BitVec.xor_left_inj x).mp ((crcByte_eq_iff c d x x).mp (ih _ _ h))

/-- Replacing one byte of a sequence by another changes its CRC (R114). -/
theorem crc8_ne_of_byte_ne (pre post : List U8) (x y : U8) (h : x ≠ y) :
    crc8 (pre ++ x :: post) ≠ crc8 (pre ++ y :: post) := by
  intro he
  rw [crc8, crc8, List.foldl_append, List.foldl_append, List.foldl_cons, List.foldl_cons] at he
  exact h ((BitVec.xor_right_inj _).mp ((crcByte_eq_iff _ _ x y).mp (foldl_crcByte_inj post _ _ he)))

/-- Flipping a bit of a byte changes the byte. -/
theorem xor_twoPow_ne (x : U8) {k : Nat} (hk : k < 8) : x ^^^ BitVec.twoPow 8 k ≠ x := by
  intro h
  have hbit := congrArg (·.getLsbD k) h
  simp [hk] at hbit

/-- Settles O45: the flipped byte differs. -/
theorem crcDetectsSingleBitFlip : Obligations.CrcDetectsSingleBitFlip :=
  fun pre post x _ hk => crc8_ne_of_byte_ne pre post _ x (xor_twoPow_ne x hk)

/-- Settles O46: each example is a closed computation of the CRC. -/
theorem crcExamples : Obligations.CrcExamples := by
  unfold Obligations.CrcExamples
  decide +kernel

/-- Settles O42: a complete frame's length is at most `pos`, so its checked range lies within the buffer. -/
theorem checkedRangeAtMost61Bytes : Obligations.CheckedRangeAtMost61Bytes := by
  rintro s ⟨-, htotal⟩
  have hpos : s.pos.val ≤ 64 := Nat.le_of_lt_succ s.pos.isLt
  have hlen : s.checkedRange.length = min (s.total - 3) (64 - 2) := by
    rw [State.checkedRange, List.length_take, List.length_drop, Vector.length_toList]
  rw [hlen, State.total]
  omega

end Sys2Proof.Machine
end

section
/-! PROOFS. PROCESS_BYTE: reassembly, completion, the hand-off and the decode (41_reassembly.md R90 to R104, 42_crc8.md R112,
43_channel_decode.md R120 to R127). -/

namespace Sys2Proof.Machine

open Sys2Proof

/-! Frames that do not complete. -/

/-- Settles O28: the timeout check comes first, and one byte completes no frame. -/
theorem timeoutStartsNewFrame : Obligations.TimeoutStartsNewFrame := by
  intro s b t hready hlate
  rw [exec_processByte_ready s b t hready, processByte_timeout s b t ((timedOut_iff s t).mpr hlate)]

/-- The first byte of a frame only starts it: one byte completes none (R91 to R93). -/
theorem processByte_first (s : State) (b : U8) (t : U32) (h : s.pos.val = 0) :
    s.processByte b t = { s with buf := s.buf.set 0 b, pos := 1, start := t } := by
  rcases processByte_cases s b t with ⟨-, e⟩ | ⟨hc, -⟩
  · rw [e, receive_first s b t h]
  · simp [receive_first s b t h] at hc

/-- Settles O29: with `pos = 0` a timeout changes nothing, and the start is stamped. -/
theorem idleByteStartsFrame : Obligations.IdleByteStartsFrame := by
  intro s b t hready hidle
  rw [exec_processByte_ready s b t hready, processByte_first s b t hidle]

/-- Settles O30: `withByte` is the store and the advance. -/
theorem unfinishedFrameTakesByte : Obligations.UnfinishedFrameTakesByte := by
  intro s b t h htakes hinc
  rw [exec_processByte_ready s b t htakes.1, processByte_unfinished s b t htakes hinc]
  rfl

/-! Frames that complete. -/

/-- The completing byte is stored, and the frame is completed there (R92, R94). -/
theorem exec_processByte_completes {s : State} {b : U8} {t : U32} (h : s.pos.val < Config.frameSizeMax)
    (htakes : s.TakesByteAt t) (hcomplete : (s.withByte b h).IsComplete) :
    exec (.processByte b t) s = .next ((s.withByte b h).completeFrame t) := by
  rw [exec_processByte_ready s b t htakes.1, processByte_complete s b t htakes hcomplete]

/-- Settles O31: the mismatch branch of the completion. -/
theorem crcMismatchDiscardsFrame : Obligations.CrcMismatchDiscardsFrame := by
  intro s b t h htakes hcomplete hbad hpolicy
  rw [exec_processByte_completes h htakes hcomplete,
    completeFrame_bad _ t (zeroLengthFault_eq_false (s.withByte b h) hpolicy) hbad]
  rfl

/-- The completion of an RC-channels frame that passes its CRC check decodes it (R120, R121, R127). -/
theorem completeFrame_decoded (s : State) (t : U32) (hz : s.zeroLengthFault = false) (hc : s.CrcGood)
    (hr : s.IsRcFrame) : s.completeFrame t = ((s.setPos 0).setAtDispatch none).decodeFrame t := by
  rw [isRcFrame_iff] at hr
  rw [completeFrame_good s t hz hc, State.dispatchFrame]
  exact if_pos hr

/-- Settles O33: the decode at the hand-off, which was empty before. -/
theorem rcFrameDecoded : Obligations.RcFrameDecoded := by
  intro s b t h htakes hd hcomplete hcrc hrc hpolicy
  have hz := zeroLengthFault_eq_false (s.withByte b h) hpolicy
  rw [exec_processByte_completes h htakes hcomplete, completeFrame_decoded _ t hz hcrc hrc, ← hd]
  rfl

/-- Settles O37: the hand-off makes the same test as the decoder's first row, and the two other rows mean the same. -/
theorem processByteHandsOffToHeaderRow : Obligations.ProcessByteHandsOffToHeaderRow := by
  intro s b t h htakes hcomplete hcrc hpolicy
  have hz := zeroLengthFault_eq_false (s.withByte b h) hpolicy
  rw [exec_processByte_completes h htakes hcomplete, completeFrame_good _ t hz hcrc, decodeHeader_ofFields,
    State.dispatchFrame]
  change Host.Outcome.next (if isRcHeader (s.withByte b h).buf[0] (s.withByte b h).buf[2] then _ else _) = _
  split
  · rfl
  · split <;> rfl

/-! Frames of length field 0 or 1: the third byte completes them. -/

/-- With two bytes in the buffer, in time, the next byte is taken (R92). -/
theorem takesByteAt_two {s : State} {t : U32} (hready : s.ByteReady) (hpos : s.pos.val = 2)
    (hin : t - s.start ≤ Config.frameTimeoutUs) : s.TakesByteAt t :=
  ⟨hready, by omega, by rw [hpos]; decide, hin⟩

/-- The state a frame's third byte leaves before its completion (R92). -/
def State.withThirdByte (s : State) (b : U8) : State := { s with buf := s.buf.set 2 b, pos := 3 }

theorem withByte_eq_withThirdByte {s : State} (b : U8) (hpos : s.pos.val = 2) (h : s.pos.val < Config.frameSizeMax) :
    s.withByte b h = s.withThirdByte b := by
  have hp : s.pos = 2 := Fin.ext hpos
  simp [State.withByte, State.withThirdByte, hp]

/-- The third byte leaves the length field alone. -/
theorem withThirdByte_length (s : State) (b : U8) : (s.withThirdByte b).buf[1] = s.buf[1] :=
  Vector.getElem_set_ne (by decide) (by decide) (by decide)

/-- The third byte completes a frame whose length field is 0 or 1 (R93, R102). -/
theorem exec_thirdByte {s : State} {t : U32} (b : U8) (hready : s.ByteReady) (hpos : s.pos.val = 2)
    (hlen : s.buf[1].toNat ≤ 1) (hin : t - s.start ≤ Config.frameTimeoutUs) :
    exec (.processByte b t) s = .next ((s.withThirdByte b).completeFrame t) := by
  have htakes := takesByteAt_two hready hpos hin
  have hcomplete : (s.withThirdByte b).IsComplete := by
    refine ⟨show 2 < 3 by decide, ?_⟩
    rw [withThirdByte_length]
    exact Nat.add_le_add_right hlen 2
  rw [← withByte_eq_withThirdByte b hpos htakes.2.2.1] at hcomplete ⊢
  exact exec_processByte_completes htakes.2.2.1 htakes hcomplete

/-- With a length field of 0 the checked range is empty, and its CRC 0 is compared with the length field (R102, R111). -/
theorem crcGood_of_length_zero {s : State} (h : s.buf[1] = 0) : s.CrcGood := by
  rw [State.CrcGood, h]
  change s.buf[1]? = some (crc8 (List.take 0 _))
  rw [List.take_zero, crc8_nil, Vector.getElem?_eq_getElem (by decide), h]

/-- With a length field of 1 the checked range is empty, and its CRC 0 is compared with the type byte (R102, R111). -/
theorem crcGood_iff_of_length_one {s : State} (h : s.buf[1] = 1) : s.CrcGood ↔ s.buf[2] = 0 := by
  rw [State.CrcGood, h]
  change s.buf[2]? = some (crc8 (List.take 0 _)) ↔ _
  rw [List.take_zero, crc8_nil, Vector.getElem?_eq_getElem (by decide), Option.some.injEq]

/-- Unpack does not read the type byte (R122). -/
theorem decodedWrites_set_two (buf : Vector U8 Config.frameSizeMax) (b : U8) :
    decodedWrites (buf.set 2 b) = decodedWrites buf := by
  have hbytes : payloadBytes (buf.set 2 b) = payloadBytes buf := by
    rw [payloadBytes, Vector.toList_set, List.drop_set_of_lt (by decide), payloadBytes]
  simp only [decodedWrites, unpack, payload, hbytes]

/-- Settles O34: the empty range's CRC is compared with the length field itself, which is 0. -/
theorem zeroLengthFrameLiteral : Obligations.ZeroLengthFrameLiteral := by
  intro s b t hready hd hpolicy hpos hlen hin
  have hshort : s.buf[1].toNat ≤ 1 := by rw [hlen]; decide
  have hlen' := withThirdByte_length s b
  have hz : (s.withThirdByte b).zeroLengthFault = false := zeroLengthFault_eq_false _ (.inl hpolicy)
  have hcrc : (s.withThirdByte b).CrcGood := crcGood_of_length_zero (hlen'.trans hlen)
  have haddr : (s.withThirdByte b).buf[0] = s.buf[0] := Vector.getElem_set_ne (by decide) (by decide) (by decide)
  have htype : (s.withThirdByte b).buf[2] = b := Vector.getElem_set_self (by decide)
  have hrc : (s.withThirdByte b).IsRcFrame ↔ s.buf[0] = Config.fcAddr ∧ b = Config.typeRcChannelsPacked := by
    rw [State.IsRcFrame, haddr, htype]
  rw [exec_thirdByte b hready hpos hshort hin]
  split
  next h =>
    have hwrites : decodedWrites (s.withThirdByte b).buf = decodedWrites s.buf := decodedWrites_set_two s.buf b
    rw [completeFrame_decoded _ t hz hcrc (hrc.mpr h), State.decodeFrame, ← hd]
    exact congrArg (fun p => Host.Outcome.next { s.withThirdByte b with pos := 0, lastValid := t, pending := p }) hwrites
  next h =>
    rw [completeFrame_ignored _ t hz hcrc (mt hrc.mp h), ← hd]
    rfl

/-- Settles O35: the policy is looked at before the CRC. -/
theorem zeroLengthFrameFault : Obligations.ZeroLengthFrameFault := by
  intro s b t hready hpolicy hpos hlen hin
  have hshort : s.buf[1].toNat ≤ 1 := by rw [hlen]; decide
  have hz : (s.withThirdByte b).zeroLengthFault = true :=
    (zeroLengthFault_iff _).mpr ⟨(withThirdByte_length s b).trans hlen, hpolicy⟩
  rw [exec_thirdByte b hready hpos hshort hin, State.completeFrame, if_pos hz]
  rfl

/-- Settles O36: the empty range's CRC is compared with the type byte, and a type byte of 0 is not an RC-channels frame's. -/
theorem lengthOneFrameNeverDecodes : Obligations.LengthOneFrameNeverDecodes := by
  intro s b t hready hd hpos hlen hin
  have hshort : s.buf[1].toNat ≤ 1 := by rw [hlen]; decide
  have hlen' := withThirdByte_length s b
  have hz : (s.withThirdByte b).zeroLengthFault = false := by
    refine zeroLengthFault_eq_false _ (.inr ?_)
    rw [hlen', hlen]
    decide
  have htype : (s.withThirdByte b).buf[2] = b := Vector.getElem_set_self (by decide)
  rw [exec_thirdByte b hready hpos hshort hin]
  by_cases hcrc : (s.withThirdByte b).CrcGood
  · have hb : b = 0 := by
      rw [← htype]
      exact (crcGood_iff_of_length_one (hlen'.trans hlen)).mp hcrc
    have hother : ¬ (s.withThirdByte b).IsRcFrame := by
      rintro ⟨-, h⟩
      rw [htype, hb] at h
      revert h
      decide
    rw [completeFrame_ignored _ t hz hcrc hother, ← hd]
    rfl
  · rw [completeFrame_bad _ t hz hcrc]
    rfl

/-! What PROCESS_BYTE leaves alone. -/

/-- Steps 1 and 2 leave the buffer alone, and step 2 the position (R90, R91). -/
theorem stampStart_checkTimeout (s : State) (t : U32) :
    ((s.checkTimeout t).stampStart t).buf = s.buf ∧
      ((s.checkTimeout t).stampStart t).pos = (s.checkTimeout t).pos := by
  rcases stampStart_cases (s.checkTimeout t) t with ⟨-, e⟩ | ⟨-, e⟩ <;> rw [e] <;>
    rcases checkTimeout_cases s t with ⟨-, e'⟩ | ⟨-, e'⟩ <;> rw [e'] <;> exact ⟨rfl, rfl⟩

/-- The byte goes to the position the timeout check leaves, if there is room (R90, R92). -/
theorem receive_buf_getElem (s : State) (b : U8) (t : U32) (j : Fin Config.frameSizeMax) :
    (s.receive b t).buf[j.val] = if j.val = (s.checkTimeout t).pos.val then b else s.buf[j.val] := by
  obtain ⟨hbuf, hpos⟩ := stampStart_checkTimeout s t
  unfold State.receive
  rcases storeByte_cases ((s.checkTimeout t).stampStart t) b with ⟨h, e⟩ | ⟨hfull, e⟩
  · simp only [e, setPos_buf, setByte_buf, Vector.getElem_set, hbuf, hpos, eq_comm]
  · rw [hpos] at hfull
    have hne : j.val ≠ (s.checkTimeout t).pos.val := by have := j.isLt; omega
    simp only [e, hbuf, if_neg hne]

/-- `start` becomes the byte's time exactly when that position is 0 (R91). -/
theorem receive_start (s : State) (b : U8) (t : U32) :
    (s.receive b t).start = if (s.checkTimeout t).pos.val = 0 then t else s.start := by
  have hstart : (s.checkTimeout t).start = s.start := by
    rcases checkTimeout_cases s t with ⟨-, e⟩ | ⟨-, e⟩ <;> rw [e]
    rfl
  have hstore : ∀ u : State, (u.storeByte b).start = u.start := fun u => by
    rcases storeByte_cases u b with ⟨h, e⟩ | ⟨-, e⟩ <;> rw [e]
    rfl
  rw [State.receive, hstore]
  rcases stampStart_cases (s.checkTimeout t) t with ⟨h, e⟩ | ⟨h, e⟩ <;> rw [e]
  · rw [if_pos h, setStart_start]
  · rw [if_neg h, hstart]

theorem processByte_buf (s : State) (b : U8) (t : U32) : (s.processByte b t).buf = (s.receive b t).buf := by
  rw [processByte_frame]

theorem processByte_start (s : State) (b : U8) (t : U32) : (s.processByte b t).start = (s.receive b t).start := by
  rw [processByte_frame]

/-- Settles O38: steps 1 to 3 are the only ones that write `buf` and `start`, and no step writes the rest. -/
theorem processByteFrame : Obligations.ProcessByteFrame := by
  intro s b t hready
  refine ⟨s.processByte b t, exec_processByte_ready s b t hready, fun j => ?_, ?_, by simp, by simp, by simp, by simp,
    ?_, ?_, by simp, by simp, by simp, by simp⟩
  · simp only [processByte_buf, receive_buf_getElem]
  · rw [processByte_start, receive_start]
  · rcases processByte_faults_cases s b t with e | e <;> rw [e]
    rfl
  · rcases processByte_faults_cases s b t with e | e <;> rw [e]
    rfl

/-- A completion that writes `lastValid` decodes the frame, at the completing byte's time (R127). -/
theorem completeFrame_lastValid_cases (s : State) (t : U32) :
    (s.completeFrame t).lastValid = s.lastValid ∨
      (s.completeFrame t).lastValid = t ∧ (s.completeFrame t).pending = decodedWrites (s.completeFrame t).buf := by
  rcases completeFrame_cases s t with ⟨-, e⟩ | ⟨-, -, e⟩ | ⟨-, -, -, e⟩ | ⟨-, -, -, e⟩ <;> rw [e]
  · exact .inl rfl
  · exact .inl rfl
  · exact .inr ⟨rfl, rfl⟩
  · exact .inl rfl

theorem processByte_lastValid_cases (s : State) (b : U8) (t : U32) :
    (s.processByte b t).lastValid = s.lastValid ∨
      (s.processByte b t).lastValid = t ∧ (s.processByte b t).pending = decodedWrites (s.processByte b t).buf := by
  rcases processByte_cases s b t with ⟨-, e⟩ | ⟨-, e⟩ <;> rw [e]
  · exact .inl (receive_lastValid s b t)
  · rw [← receive_lastValid s b t]
    exact completeFrame_lastValid_cases (s.receive b t) t

/-- Settles O40: of the meanings only PROCESS_BYTE's decode and the RC-channels row write `lastValid`. -/
theorem lastValidWrittenOnlyByDecode : Obligations.LastValidWrittenOnlyByDecode := by
  intro i s u hu hne
  cases i with
  | init =>
    rcases execInit_cases s with ⟨-, e⟩ | ⟨-, e⟩ <;> obtain rfl := Host.Outcome.next.inj (e.symm.trans hu) <;>
      exact absurd rfl hne
  | processByte b t =>
    rcases execProcessByte_cases b t s with ⟨-, e⟩ | ⟨-, -, e⟩ | ⟨-, -, e⟩ <;>
      obtain rfl := Host.Outcome.next.inj (e.symm.trans hu)
    · exact absurd rfl hne
    · exact absurd rfl hne
    · rcases processByte_lastValid_cases s b t with h | ⟨h, hp⟩
      · exact absurd h hne
      · exact ⟨hp, .inl ⟨b, by rw [h]⟩⟩
  | getChannel x =>
    rcases execGetChannel_cases x s with ⟨-, e⟩ | ⟨-, e⟩ <;> obtain rfl := Host.Outcome.next.inj (e.symm.trans hu)
    · exact absurd (respond_lastValid s _) hne
    · exact absurd rfl hne
  | isConnected =>
    rcases execIsConnected_cases s with ⟨-, e⟩ | ⟨-, e⟩ <;> obtain rfl := Host.Outcome.next.inj (e.symm.trans hu)
    · exact absurd (respond_lastValid s _) hne
    · exact absurd rfl hne
  | frameRcChannelsPackedFc len =>
    obtain rfl := Host.Outcome.next.inj hu
    rcases dispatchRcChannels_cases s with ⟨-, e⟩ | ⟨t, ht, e⟩
    · rw [e] at hne
      exact absurd rfl hne
    · rw [e]
      exact ⟨rfl, .inr ⟨len, rfl, ht⟩⟩
  | frameLinkStatistics a len =>
    obtain rfl := Host.Outcome.next.inj hu
    exact absurd rfl hne
  | frameOther a len y =>
    obtain rfl := Host.Outcome.next.inj hu
    exact absurd rfl hne

end Sys2Proof.Machine
end

section
/-! PROOFS. Programs of the assembler, from their bytes to the frame they complete (30_encoding.md R66 to R68, R72), and a frame
with one bit flipped (42_crc8.md R114). -/

namespace Sys2Proof.Machine

open Sys2Proof

/-! A flipped bit. -/

/-- Replacing one entry of a sequence by another changes its CRC (R114). -/
theorem crc8_set_ne (seq : List U8) (i : Nat) (y : U8) (hi : i < seq.length) (hy : y ≠ seq[i]) :
    crc8 (seq.set i y) ≠ crc8 seq := by
  have hsplit : seq = seq.take i ++ seq[i] :: seq.drop (i + 1) := by
    rw [List.getElem_cons_drop, List.take_append_drop]
  have hset : seq.set i y = seq.take i ++ y :: seq.drop (i + 1) := by
    rw [List.set_eq_take_append_cons_drop, if_pos hi]
  rw [hset]
  conv_rhs => rw [hsplit]
  exact crc8_ne_of_byte_ne _ _ _ _ hy

/-- Replacing a byte inside the checked range changes the range's CRC (R111, R114). -/
theorem crc8_range_set_ne (buf : Vector U8 Config.frameSizeMax) (j n : Nat) (y : U8) (hj : j < Config.frameSizeMax)
    (h2 : 2 ≤ j) (hn : j < n + 2) (hy : y ≠ buf[j]) :
    crc8 (((buf.set j y).toList.drop 2).take n) ≠ crc8 ((buf.toList.drop 2).take n) := by
  have hlen : j - 2 < ((buf.toList.drop 2).take n).length := by
    rw [List.length_take, List.length_drop, Vector.length_toList]
    omega
  have hget : ((buf.toList.drop 2).take n)[j - 2] = buf[j] := by
    simp [show 2 + (j - 2) = j by omega]
  rw [Vector.toList_set, List.drop_set, if_neg (by omega), List.take_set]
  exact crc8_set_ne _ _ y hlen (hget ▸ hy)

/-- A frame that passes its CRC check does not pass it with one byte of the checked range replaced (R112, R114). -/
theorem not_crcGood_set {s : State} {j : Nat} {y : U8} (hj : j < Config.frameSizeMax) (h2 : 2 ≤ j)
    (hlast : j < s.buf[1].toNat + 1) (hy : y ≠ s.buf[j]) (hcrc : s.CrcGood) :
    ¬ ({ s with buf := s.buf.set j y } : State).CrcGood := by
  have hone : (s.buf.set j y)[1] = s.buf[1] := Vector.getElem_set_ne hj (by decide) (by omega)
  intro hcrc'
  rw [State.CrcGood] at hcrc hcrc'
  rw [hone, Vector.getElem?_set_ne hj (by omega), hcrc, Option.some.injEq] at hcrc'
  exact crc8_range_set_ne s.buf j _ y hj h2 (by omega) hy hcrc'.symm

/-- A frame with one type or payload byte replaced by another is discarded (R112, R114). -/
theorem replacedByte_discardsFrame {s : State} {b : U8} {t : U32} (h : s.pos.val < Config.frameSizeMax) {j : Nat} {y : U8}
    (hj : j < s.pos.val) (htakes : s.TakesByteAt t) (h2 : 2 ≤ j) (hlen : s.buf[1].toNat + 2 = s.pos.val + 1)
    (hcrc : (s.withByte b h).CrcGood) (hy : y ≠ s.buf[j]) :
    exec (.processByte b t) { s with buf := s.buf.set j y } =
      .next { s with buf := (s.buf.set j y).set s.pos.val b h, pos := 0 } := by
  have hj64 : j < Config.frameSizeMax := Nat.lt_trans hj h
  have hflip : ({ s with buf := s.buf.set j y } : State).withByte b h =
      { s.withByte b h with buf := (s.withByte b h).buf.set j y } := by
    change { s.withByte b h with buf := (s.buf.set j y).set s.pos.val b h } = _
    rw [Vector.set_comm _ _ (Nat.ne_of_lt hj)]
    rfl
  have hbyte : (s.withByte b h).buf[j] = s.buf[j] := Vector.getElem_set_ne h hj64 (Nat.ne_of_gt hj)
  have hone : (s.withByte b h).buf[1] = s.buf[1] := Vector.getElem_set_ne h (by decide) (by omega)
  have hone' : ((s.withByte b h).buf.set j y)[1] = s.buf[1] := by
    rw [Vector.getElem_set_ne hj64 (by decide) (by omega), hone]
  refine crcMismatchDiscardsFrame { s with buf := s.buf.set j y } b t h htakes ?_ ?_ (.inr ?_) <;> rw [hflip]
  · rw [State.IsComplete, hone']
    exact ⟨show 2 < s.pos.val + 1 by omega, Nat.le_of_eq hlen⟩
  · exact not_crcGood_set hj64 h2 (by rw [hone]; omega) (hbyte ▸ hy) hcrc
  · rw [hone']
    intro h0
    have hnat : s.buf[1].toNat = 0 := congrArg BitVec.toNat h0
    omega

/-- Settles O47: a flipped byte differs, and the length field and the CRC byte are not flipped. -/
theorem flippedBitDiscardsFrame : Obligations.FlippedBitDiscardsFrame :=
  fun s _ _ h j _ hj htakes h2 hk hlen hcrc =>
    replacedByte_discardsFrame h hj htakes h2 hlen hcrc (xor_twoPow_ne s.buf[j] hk)

/-! FEED. -/

theorem feedWords_length (t dt : U32) (bytes : List U8) : (feedWords t dt bytes).length = bytes.length := by
  induction bytes generalizing t with
  | nil => rfl
  | cons b bs ih => rw [feedWords, List.length_cons, ih, List.length_cons]

/-- Word `k` of FEED is the PROCESS_BYTE of byte `k`, `k` steps later (R72). -/
theorem feedWords_getElem? (t dt : U32) (bytes : List U8) (k : Nat) :
    (feedWords t dt bytes)[k]? = (bytes[k]?).map fun b => cmdOfFields 0b01 0 b (t + BitVec.ofNat 32 k * dt) := by
  induction bytes generalizing t k with
  | nil => rfl
  | cons b bs ih =>
    cases k with
    | zero => simp [feedWords]
    | succ k =>
      have htime : t + dt + BitVec.ofNat 32 k * dt = t + BitVec.ofNat 32 (k + 1) * dt := by
        rw [BitVec.ofNat_add, show BitVec.ofNat 32 1 = (1 : U32) from rfl]
        ring
      rw [feedWords, List.getElem?_cons_succ, ih, htime, List.getElem?_cons_succ]

/-- Settles O56: each word is the encoding of its PROCESS_BYTE. -/
theorem feedExpandsToProcessBytes : Obligations.FeedExpandsToProcessBytes := by
  intro t0 dt bytes
  refine ⟨feedWords_length t0 dt bytes, fun k b hk => ?_⟩
  rw [feedWords_getElem?, hk, Option.map_some, Option.map_some]
  exact congrArg some (Sys2Proof.decodeEncode (.processByte b (t0 + BitVec.ofNat 32 k * dt)) rfl)

/-! FRAME and RCFRAME. -/

/-- The buffer begins with these bytes. -/
def Holds (buf : Vector U8 Config.frameSizeMax) (bytes : List U8) : Prop :=
  ∀ (j : Nat) (x : U8), bytes[j]? = some x → buf[j]? = some x

theorem Holds.toList_eq {buf : Vector U8 Config.frameSizeMax} {bytes : List U8} (h : Holds buf bytes) :
    buf.toList = bytes ++ buf.toList.drop bytes.length := by
  have htake : buf.toList.take bytes.length = bytes := by
    apply List.ext_getElem?
    intro j
    rw [List.getElem?_take]
    split
    next hj =>
      rw [List.getElem?_eq_getElem hj, Vector.getElem?_toList]
      exact h j _ (List.getElem?_eq_getElem hj)
    next hj => exact (List.getElem?_eq_none (Nat.le_of_not_lt hj)).symm
  conv_lhs => rw [← List.take_append_drop bytes.length buf.toList, htake]

theorem frameBytes_length (a y : U8) (payload : List U8) : (frameBytes a y payload).length = payload.length + 4 := by
  simp [frameBytes]

/-- Settles O57: the checked range is the type byte and the payload, and the byte after it their CRC. -/
theorem frameBytesPassCrc : Obligations.FrameBytesPassCrc := by
  intro a y payload s hlen hpos hbuf
  have hone : s.buf[1] = BitVec.ofNat 8 (payload.length + 2) := by
    have h := hbuf 1 _ rfl
    rwa [Vector.getElem?_eq_getElem (by decide), Option.some.injEq] at h
  have hnat : s.buf[1].toNat = payload.length + 2 := by
    rw [hone, BitVec.toNat_ofNat]
    exact Nat.mod_eq_of_lt (show payload.length + 2 < 256 by omega)
  have hrange : (s.buf.toList.drop 2).take (payload.length + 1) = y :: payload := by
    rw [Holds.toList_eq hbuf, frameBytes, List.cons_append, List.cons_append, List.drop_succ_cons, List.drop_succ_cons,
      List.drop_zero, ← List.cons_append, List.append_assoc]
    exact List.take_left' rfl
  have hcrc : s.buf[payload.length + 3]? = some (crc8 (y :: payload)) := by
    refine hbuf (payload.length + 3) _ ?_
    simp [frameBytes]
  refine ⟨by rw [State.total, hnat], ⟨by omega, by omega⟩, ?_⟩
  rw [State.CrcGood, hnat]
  exact hcrc.trans (congrArg (fun range => some (crc8 range)) hrange.symm)

/-- Once the completing byte is stored, the buffer holds the whole of RCFRAME (R72). -/
theorem holds_withByte {s : State} {b : U8} {bytes : List U8} (h : s.pos.val < Config.frameSizeMax)
    (hlen : bytes.length = s.pos.val + 1)
    (hbuf : ∀ (j : Nat) (x : U8), j < s.pos.val → bytes[j]? = some x → s.buf[j]? = some x)
    (hlast : bytes[s.pos.val]? = some b) : Holds (s.withByte b h).buf bytes := by
  intro j x hx
  have hj := (List.getElem?_eq_some_iff.mp hx).1
  change (s.buf.set s.pos.val b h)[j]? = some x
  rcases Nat.lt_or_ge j s.pos.val with hlt | hge
  · rw [Vector.getElem?_set_ne h (Nat.ne_of_gt hlt)]
    exact hbuf j x hlt hx
  · obtain rfl : j = s.pos.val := by omega
    rw [Vector.getElem?_set_self h, ← hlast, hx]

/-- Settles O58: RCFRAME's frame passes its CRC check (`FrameBytesPassCrc`), is for the RC-channels row, and its payload unpacks
to the raw values (`UnpackInvertsPacking`). -/
theorem rcFrameRoundTrip : Obligations.RcFrameRoundTrip := by
  intro raws s b t hraws htakes hpos hbuf hlast
  have h : s.pos.val < Config.frameSizeMax := htakes.2.2.1
  have hlen := frameBytes_length Config.fcAddr Config.typeRcChannelsPacked (rcPayload raws)
  rw [rcPayload_length] at hlen
  have hholds : Holds (s.withByte b h).buf (frameBytes Config.fcAddr Config.typeRcChannelsPacked (rcPayload raws)) :=
    holds_withByte h (by omega) (by rwa [hpos]) (by rwa [hpos])
  have hpos' : (s.withByte b h).pos.val = (rcPayload raws).length + 4 := by
    rw [rcPayload_length]
    exact congrArg (· + 1) hpos
  obtain ⟨htotal, hcomplete, hcrc⟩ :=
    frameBytesPassCrc _ _ _ (s.withByte b h) (by rw [rcPayload_length]; decide) hpos' hholds
  have hbyte : ∀ (j : Nat) (hj : j < 64) (x : U8),
      (frameBytes Config.fcAddr Config.typeRcChannelsPacked (rcPayload raws))[j]? = some x →
        (s.withByte b h).buf[j]'hj = x := fun j hj x hx => by
    have hget := hholds j x hx
    rwa [Vector.getElem?_eq_getElem hj, Option.some.injEq] at hget
  have hrc : (s.withByte b h).IsRcFrame := ⟨hbyte 0 (by decide) _ rfl, hbyte 2 (by decide) _ rfl⟩
  have hz : (s.withByte b h).zeroLengthFault = false := by
    refine zeroLengthFault_eq_false _ (.inr fun h0 => ?_)
    rw [State.total, h0, rcPayload_length] at htotal
    exact absurd htotal (by decide)
  refine ⟨_, (exec_processByte_completes h htakes hcomplete).trans
    (congrArg Host.Outcome.next (completeFrame_decoded _ t hz hcrc hrc)), ?_, rfl, fun i => ?_⟩
  · exact (reassembler_eq_idle_iff _).mpr rfl
  · have hi : i.val < 16 := Nat.lt_trans i.isLt (by decide)
    have hraw := unpackInvertsPacking raws (s.withByte b h).buf hraws (fun j => ?_) ⟨i.val, hi⟩
    · change (raws[i.val]?).map rescale = (decodedWrites (s.withByte b h).buf)[i.val]
      rw [hraw, decodedWrites_getElem]
      rfl
    · have hj := j.isLt
      rw [rcPayload_getElem? raws j.val hj]
      refine congrArg some (hbyte (3 + j.val) _ _ ?_)
      rw [Nat.add_comm, frameBytes, List.getElem?_cons_succ, List.getElem?_cons_succ, List.getElem?_cons_succ,
        List.getElem?_append_left (by rw [rcPayload_length]; exact hj), rcPayload_getElem? raws j.val hj]

end Sys2Proof.Machine
end

section
/-! PROOFS. What no run observes: `lastValid`, `start` while `pos = 0`, the registers power-on leaves open, and a shift of all
times (10_state.md R25, R33, 41_reassembly.md R101, 70_reset_and_hazards.md R150, R153). -/

namespace Sys2Proof.Machine

open Sys2Proof

/-! Simulations: relations between states that every step keeps. -/

/-- A relation between states that agree on what a step looks at, kept by each part a step is made of. -/
structure Simulation (R : State → State → Prop) : Prop where
  turn : ∀ {s u}, R s u → u.turn = s.turn
  fetch : ∀ {s u}, R s u → ∀ a, u.fetch a = s.fetch a
  atDispatch : ∀ {s u}, R s u → u.atDispatch = s.atDispatch
  frameHeader : ∀ {s u}, R s u → u.frameHeader = s.frameHeader
  pending : ∀ {s u}, R s u → u.pending = s.pending
  takeTurn : ∀ {s u}, R s u → R s.takeTurn u.takeTurn
  setIssuer : ∀ {s u}, R s u → ∀ a, R (s.setIssuer a) (u.setIssuer a)
  refuse : ∀ {s u}, R s u → ∀ r, R (s.refuse r) (u.refuse r)
  advance : ∀ {s u}, R s u → ∀ a, R (s.advance a) (u.advance a)
  retire : ∀ {s u}, R s u → ∀ i v, s.pending[i.val]'i.isLt = some v → R (s.retire i) (u.retire i)
  exec : ∀ {s u t}, R s u → ∀ i, exec i s = .next t → ∃ t', exec i u = .next t' ∧ R t t'

namespace Simulation

variable {R : State → State → Prop} {s u t : State}

theorem finish (hR : Simulation R) (h : R s u) (a : Agent) : R (s.finish a) (u.finish a) := by
  cases a with
  | consumer => exact hR.advance h .consumer
  | byteSource =>
    have hpend := hR.pending h
    by_cases hp : s.pending = noWrites
    · rw [finish_byteSource_noWrites hp, finish_byteSource_noWrites (hpend.trans hp)]
      exact hR.advance h .byteSource
    · rw [finish_byteSource_pending hp, finish_byteSource_pending (hpend ▸ hp)]
      exact h

theorem runCommand (hR : Simulation R) (h : R s u) (a : Agent) (hs : runCommand a s = .next t) :
    ∃ t', runCommand a u = .next t' ∧ R t t' := by
  rcases runCommand_cases a s with ⟨hf, e⟩ | ⟨w, hf, hw, e⟩ | ⟨w, i, v, hf, hw, hv, e⟩ <;>
    obtain rfl := Host.Outcome.next.inj (e.symm.trans hs) <;> rw [← hR.fetch h a] at hf
  · exact ⟨u, by rw [Machine.runCommand, hf], h⟩
  · exact ⟨_, runCommand_of_refusal a u w hf hw, hR.finish (hR.refuse (hR.setIssuer h a) _) a⟩
  · obtain ⟨v', hv', hvv'⟩ := hR.exec (hR.setIssuer h a) i hv
    exact ⟨_, by rw [runCommand_of_decode a u w i hf hw, hv', mapNext_next], hR.finish hvv' a⟩

theorem step (hR : Simulation R) (h : R s u) (hs : step s = .next t) : ∃ t', step u = .next t' ∧ R t t' := by
  cases hd : s.atDispatch with
  | some x =>
    obtain ⟨v, hv⟩ := exec_next (decodeHeader s.frameHeader) s
    obtain ⟨v', hv', hvv'⟩ := hR.exec h _ hv
    rw [step_of_dispatch s x hd, runDispatch, hv] at hs
    obtain rfl := Host.Outcome.next.inj hs
    refine ⟨_, ?_, hR.finish hvv' .byteSource⟩
    rw [step_of_dispatch u x ((hR.atDispatch h).trans hd), runDispatch, hR.frameHeader h, hv', mapNext_next]
  | none =>
    rw [step_of_turn s hd] at hs
    rw [step_of_turn u ((hR.atDispatch h).trans hd), hR.turn h]
    have htake := hR.takeTurn h
    cases hturn : s.turn with
    | none =>
      rw [hturn] at hs
      obtain rfl := Host.Outcome.next.inj hs
      exact ⟨_, rfl, htake⟩
    | some x =>
      rw [hturn] at hs
      cases x with
      | byteSource => exact hR.runCommand htake .byteSource hs
      | consumer => exact hR.runCommand htake .consumer hs
      | retire i =>
        obtain rfl := Host.Outcome.next.inj hs
        obtain ⟨v, hv⟩ := (enabled_retire s i).mp (turn_enabled s _ hturn)
        exact ⟨_, rfl, hR.finish (hR.retire htake i v hv) .byteSource⟩

/-- Runs of related states go to related states. -/
theorem runs (hR : Simulation R) {k : Nat} (h : R s u) (hs : s.runs k t) : ∃ t', u.runs k t' ∧ R t t' := by
  induction k generalizing s u with
  | zero =>
    obtain rfl := Host.Outcome.next.inj hs
    exact ⟨u, rfl, h⟩
  | succ k ih =>
    obtain ⟨s', hs'⟩ := stepNeverStops s
    obtain ⟨u', hu', h'⟩ := hR.step h hs'
    obtain ⟨t', ht', htt'⟩ := ih h' ((runs_succ_iff hs').mp hs)
    exact ⟨t', (runs_succ_iff hu').mpr ht', htt'⟩

end Simulation

/-! A state with its recorded times replaced. -/

/-- The state with other recorded times. -/
def State.retime (s : State) (x l : U32) : State := { s with start := x, lastValid := l }

theorem frameComplete_retime (s : State) (x l : U32) : (s.retime x l).frameComplete = s.frameComplete := rfl

theorem retire_retime (s : State) (x l : U32) (i : Fin Config.nDecoded) :
    (s.retime x l).retire i = (s.retire i).retime x l := by
  cases hv : s.pending[i.val]'i.isLt with
  | none =>
    rw [retire_none s i hv]
    exact retire_none (s.retime x l) i hv
  | some v =>
    rw [retire_some s i v hv]
    exact retire_some (s.retime x l) i v hv

theorem agent_retime (s : State) (x l : U32) (a : Agent) : (s.retime x l).agent a = s.agent a := by
  cases a <;> rfl

theorem setAgent_retime (s : State) (x l : U32) (a : Agent) (y : AgentState) :
    (s.retime x l).setAgent a y = (s.setAgent a y).retime x l := by
  cases a <;> rfl

theorem respond_retime (s : State) (x l : U32) (v : U16) : (s.retime x l).respond v = (s.respond v).retime x l := by
  rw [State.respond, agent_retime, setAgent_retime]
  rfl

theorem advance_retime (s : State) (x l : U32) (a : Agent) : (s.retime x l).advance a = (s.advance a).retime x l := by
  cases a <;> rfl

/-- Steps 1 to 3 at times of the same age: the position and the buffer are as before, and a new frame has the new time. -/
theorem receive_retime {s : State} {x l t t' : U32} (b : U8) (h : (s.retime x l).timedOut t' = s.timedOut t) :
    ∃ x', (s.retime x l).receive b t' = (s.receive b t).retime x' l ∧
      ((x' = x ∧ (s.receive b t).start = s.start) ∨ (x' = t' ∧ (s.receive b t).start = t)) := by
  rcases receive_cases s b t with ⟨hnew, e⟩ | ⟨ht, h0, hroom, e⟩ | ⟨ht, hfull, e⟩ <;> rw [e]
  · refine ⟨t', ?_, .inr ⟨rfl, rfl⟩⟩
    rcases hnew with ht | h0
    · exact receive_timeout (s.retime x l) b t' (h.trans ht)
    · exact receive_first (s.retime x l) b t' h0
  · exact ⟨x, receive_next _ b t' (h.trans ht) h0 hroom, .inl ⟨rfl, rfl⟩⟩
  · exact ⟨x, receive_full _ b t' (h.trans ht) hfull, .inl ⟨rfl, rfl⟩⟩

/-- A completion looks at no time, and stamps a decoded frame with the new one (R127). -/
theorem completeFrame_retime (s : State) (x l t t' : U32) :
    ∃ l', (s.retime x l).completeFrame t' = (s.completeFrame t).retime x l' ∧
      ((l' = l ∧ (s.completeFrame t).lastValid = s.lastValid) ∨ (l' = t' ∧ (s.completeFrame t).lastValid = t)) := by
  rcases completeFrame_cases s t with ⟨hz, e⟩ | ⟨hz, hc, e⟩ | ⟨hz, hc, hr, e⟩ | ⟨hz, hc, hr, e⟩ <;> rw [e]
  · exact ⟨l, if_pos hz, .inl ⟨rfl, rfl⟩⟩
  · exact ⟨l, completeFrame_bad (s.retime x l) t' hz (mt (crcGood_iff s).mp (Bool.eq_false_iff.mp hc)),
      .inl ⟨rfl, rfl⟩⟩
  · exact ⟨t', completeFrame_decoded (s.retime x l) t' hz ((crcGood_iff s).mpr hc) ((isRcFrame_iff s).mpr hr),
      .inr ⟨rfl, rfl⟩⟩
  · exact ⟨l, completeFrame_ignored (s.retime x l) t' hz ((crcGood_iff s).mpr hc)
      (mt (isRcFrame_iff s).mp (Bool.eq_false_iff.mp hr)), .inl ⟨rfl, rfl⟩⟩

/-- PROCESS_BYTE at times of the same age: only the recorded times differ, each left alone by both or set to the byte's time
by both (R100, R101). -/
theorem processByte_retime {s : State} {x l t t' : U32} (b : U8) (h : (s.retime x l).timedOut t' = s.timedOut t) :
    ∃ x' l', (s.retime x l).processByte b t' = (s.processByte b t).retime x' l' ∧
      ((x' = x ∧ (s.processByte b t).start = s.start) ∨ (x' = t' ∧ (s.processByte b t).start = t)) ∧
      ((l' = l ∧ (s.processByte b t).lastValid = s.lastValid) ∨ (l' = t' ∧ (s.processByte b t).lastValid = t)) := by
  obtain ⟨x', hx, hstart⟩ := receive_retime b h
  rcases processByte_cases s b t with ⟨hinc, e⟩ | ⟨hcomp, e⟩ <;> rw [e]
  · refine ⟨x', l, ?_, hstart, .inl ⟨rfl, receive_lastValid s b t⟩⟩
    rw [State.processByte, hx, frameComplete_retime, if_neg (Bool.eq_false_iff.mp hinc)]
  · obtain ⟨l', hl, hlast⟩ := completeFrame_retime (s.receive b t) x' l t t'
    rw [receive_lastValid] at hlast
    refine ⟨x', l', ?_, ?_, hlast⟩
    · rw [State.processByte, hx, frameComplete_retime, if_pos hcomp, hl]
    · rwa [completeFrame_start]

/-- Settles O39: an age is a difference of times, so the shifted byte has the same age. -/
theorem onlyElapsedTimeMatters : Obligations.OnlyElapsedTimeMatters := by
  intro s b t d
  change exec (.processByte b (t + d)) (s.retime (s.start + d) (s.lastValid + d)) = _
  rcases execProcessByte_cases b t s with ⟨hi, e⟩ | ⟨hi, hd, e⟩ | ⟨hi, hd, e⟩ <;> rw [e]
  · exact exec_processByte_consumer b (t + d) _ hi
  · exact exec_processByte_unready b (t + d) _ hi hd
  · have hage : t + d - (s.start + d) = t - s.start := by ring
    have htimed : (s.retime (s.start + d) (s.lastValid + d)).timedOut (t + d) = s.timedOut t :=
      congrArg (fun age => decide (Config.frameTimeoutUs < age)) hage
    obtain ⟨x', l', hpb, hstart, hlast⟩ := processByte_retime b htimed
    have hx : x' = (s.processByte b t).start + d := by
      rcases hstart with ⟨rfl, h⟩ | ⟨rfl, h⟩ <;> rw [h]
    have hl : l' = (s.processByte b t).lastValid + d := by
      rcases hlast with ⟨rfl, h⟩ | ⟨rfl, h⟩ <;> rw [h]
    rw [exec_processByte_ready (s.retime (s.start + d) (s.lastValid + d)) b (t + d) ⟨hi, hd⟩, hpb, hx, hl]
    rfl

/-- Every meaning but PROCESS_BYTE's looks at no recorded time but to copy one, and writes no `start` and no `pos` but 0. -/
theorem exec_retime {i : Instr} {s t : State} (x l : U32) (hi : ∀ b y, i ≠ .processByte b y) (hs : exec i s = .next t) :
    ∃ l', exec i (s.retime x l) = .next (t.retime x l') ∧ t.start = s.start ∧ (l = s.lastValid → l' = t.lastValid) ∧
      (t.pos.val = 0 ∨ t.pos = s.pos) := by
  cases i with
  | init =>
    rcases execInit_cases s with ⟨hp, e⟩ | ⟨hp, e⟩ <;> obtain rfl := Host.Outcome.next.inj (e.symm.trans hs)
    · exact ⟨l, exec_init_noWrites (s.retime x l) hp, rfl, id, .inl rfl⟩
    · exact ⟨l, exec_init_overlap (s.retime x l) hp, rfl, id, .inr rfl⟩
  | processByte b y => exact absurd rfl (hi b y)
  | getChannel z =>
    rcases execGetChannel_cases z s with ⟨hd, e⟩ | ⟨hd, e⟩ <;> obtain rfl := Host.Outcome.next.inj (e.symm.trans hs)
    · refine ⟨l, ?_, respond_start s _, fun h => h.trans (respond_lastValid s _).symm, .inr (respond_pos s _)⟩
      rw [exec_getChannel_ready z (s.retime x l) hd, respond_retime]
      rfl
    · exact ⟨l, exec_getChannel_unready z (s.retime x l) hd, rfl, id, .inr rfl⟩
  | isConnected =>
    rcases execIsConnected_cases s with ⟨hd, e⟩ | ⟨hd, e⟩ <;> obtain rfl := Host.Outcome.next.inj (e.symm.trans hs)
    · refine ⟨l, ?_, respond_start s _, fun h => h.trans (respond_lastValid s _).symm, .inr (respond_pos s _)⟩
      rw [exec_isConnected_ready (s.retime x l) hd, respond_retime]
    · exact ⟨l, exec_isConnected_unready (s.retime x l) hd, rfl, id, .inr rfl⟩
  | frameRcChannelsPackedFc len =>
    obtain rfl := Host.Outcome.next.inj hs
    obtain ⟨hdecodes, hwaits⟩ := rcChannelsRowDecodes (s.retime x l) len
    rcases dispatchRcChannels_cases s with ⟨hd, e⟩ | ⟨y, hd, e⟩ <;> rw [e]
    · exact ⟨l, hwaits hd, rfl, id, .inr rfl⟩
    · exact ⟨y, hdecodes y hd, rfl, fun _ => rfl, .inr rfl⟩
  | frameLinkStatistics a len =>
    obtain rfl := Host.Outcome.next.inj hs
    exact ⟨l, rfl, rfl, id, .inr rfl⟩
  | frameOther a len y =>
    obtain rfl := Host.Outcome.next.inj hs
    exact ⟨l, rfl, rfl, id, .inr rfl⟩

/-! `lastValid`. -/

/-- The second state differs from the first in `lastValid` at most. -/
def SameButLastValid (s u : State) : Prop := ∃ l, u = s.retime s.start l

theorem sameButLastValid_exec {i : Instr} {s u t : State} (h : SameButLastValid s u) (hs : exec i s = .next t) :
    ∃ t', exec i u = .next t' ∧ SameButLastValid t t' := by
  obtain ⟨l, rfl⟩ := h
  by_cases hi : ∃ b y, i = .processByte b y
  · obtain ⟨b, y, rfl⟩ := hi
    rcases execProcessByte_cases b y s with ⟨hc, e⟩ | ⟨hc, hd, e⟩ | ⟨hc, hd, e⟩ <;>
      obtain rfl := Host.Outcome.next.inj (e.symm.trans hs)
    · exact ⟨_, exec_processByte_consumer b y (s.retime s.start l) hc, l, rfl⟩
    · exact ⟨_, exec_processByte_unready b y (s.retime s.start l) hc hd, l, rfl⟩
    · obtain ⟨x', l', hpb, hstart, -⟩ := processByte_retime (s := s) (x := s.start) (l := l) (t := y) b rfl
      refine ⟨_, exec_processByte_ready (s.retime s.start l) b y ⟨hc, hd⟩, l', ?_⟩
      have hx : x' = (s.processByte b y).start := by
        rcases hstart with ⟨rfl, h⟩ | ⟨rfl, h⟩ <;> exact h.symm
      rw [hpb, hx]
  · obtain ⟨l', e, hstart, -⟩ := exec_retime s.start l (fun b y h => hi ⟨b, y, h⟩) hs
    exact ⟨_, e, l', by rw [hstart]⟩

theorem sameButLastValid_simulation : Simulation SameButLastValid where
  turn := by rintro s u ⟨l, rfl⟩; rfl
  fetch := by rintro s u ⟨l, rfl⟩ a; rw [State.fetch, agent_retime, State.fetch]
  atDispatch := by rintro s u ⟨l, rfl⟩; rfl
  frameHeader := by rintro s u ⟨l, rfl⟩; rfl
  pending := by rintro s u ⟨l, rfl⟩; rfl
  takeTurn := by rintro s u ⟨l, rfl⟩; exact ⟨l, rfl⟩
  setIssuer := by rintro s u ⟨l, rfl⟩ a; exact ⟨l, rfl⟩
  refuse := by rintro s u ⟨l, rfl⟩ r; exact ⟨l, rfl⟩
  advance := by rintro s u ⟨l, rfl⟩ a; exact ⟨l, by rw [advance_retime, advance_start]⟩
  retire := by rintro s u ⟨l, rfl⟩ i v hv; exact ⟨l, by rw [retire_retime, retire_start]⟩
  exec := fun h _ hs => sameButLastValid_exec h hs

/-- Settles O7: a run of a state that differs in `lastValid` only goes the same way. -/
theorem lastValidUnobservable : Obligations.LastValidUnobservable := by
  intro s t v k hs
  obtain ⟨u, hu, l, rfl⟩ := sameButLastValid_simulation.runs (u := { s with lastValid := v }) ⟨v, rfl⟩ hs
  exact ⟨_, hu, rfl⟩

/-! `start` while `pos = 0`. -/

/-- The states are equal, or the reassembler is idle and they differ in `start` only: `y` in the first, `x` in the second. -/
def SameButIdleStart (y x : U32) (s u : State) : Prop :=
  u = s ∨ s.pos.val = 0 ∧ s.start = y ∧ u = s.retime x s.lastValid

/-- With `pos = 0` PROCESS_BYTE overwrites `start` before it is read (R91). -/
theorem exec_processByte_idle {s : State} (b : U8) (t x : U32) (hready : s.ByteReady) (hidle : s.pos.val = 0) :
    exec (.processByte b t) (s.retime x s.lastValid) = exec (.processByte b t) s := by
  rw [idleByteStartsFrame s b t hready hidle, idleByteStartsFrame (s.retime x s.lastValid) b t hready hidle]
  rfl

theorem sameButIdleStart_exec {y x : U32} {i : Instr} {s u t : State} (h : SameButIdleStart y x s u)
    (hs : exec i s = .next t) : ∃ t', exec i u = .next t' ∧ SameButIdleStart y x t t' := by
  rcases h with rfl | ⟨hp, rfl, rfl⟩
  · exact ⟨t, hs, .inl rfl⟩
  by_cases hi : ∃ b z, i = .processByte b z
  · obtain ⟨b, z, rfl⟩ := hi
    rcases execProcessByte_cases b z s with ⟨hc, e⟩ | ⟨hc, hd, e⟩ | ⟨hc, hd, e⟩
    · obtain rfl := Host.Outcome.next.inj (e.symm.trans hs)
      exact ⟨_, exec_processByte_consumer b z (s.retime x s.lastValid) hc, .inr ⟨hp, rfl, rfl⟩⟩
    · obtain rfl := Host.Outcome.next.inj (e.symm.trans hs)
      exact ⟨_, exec_processByte_unready b z (s.retime x s.lastValid) hc hd, .inr ⟨hp, rfl, rfl⟩⟩
    · exact ⟨t, (exec_processByte_idle b z x ⟨hc, hd⟩ hp).trans hs, .inl rfl⟩
  · obtain ⟨l', e, hstart, hlast, hpos⟩ := exec_retime x s.lastValid (fun b z h => hi ⟨b, z, h⟩) hs
    have hp' : t.pos.val = 0 := hpos.elim id fun h => by rw [h, hp]
    exact ⟨_, e, .inr ⟨hp', hstart, by rw [hlast rfl]⟩⟩

theorem sameButIdleStart_simulation (y x : U32) : Simulation (SameButIdleStart y x) where
  turn := by rintro s u (rfl | ⟨-, -, rfl⟩) <;> rfl
  fetch := by
    rintro s u (rfl | ⟨-, -, rfl⟩) a
    · rfl
    · rw [State.fetch, agent_retime, State.fetch]
  atDispatch := by rintro s u (rfl | ⟨-, -, rfl⟩) <;> rfl
  frameHeader := by rintro s u (rfl | ⟨-, -, rfl⟩) <;> rfl
  pending := by rintro s u (rfl | ⟨-, -, rfl⟩) <;> rfl
  takeTurn := by
    rintro s u (rfl | ⟨hp, rfl, rfl⟩)
    · exact .inl rfl
    · exact .inr ⟨hp, rfl, rfl⟩
  setIssuer := by
    rintro s u (rfl | ⟨hp, rfl, rfl⟩) a
    · exact .inl rfl
    · exact .inr ⟨hp, rfl, rfl⟩
  refuse := by
    rintro s u (rfl | ⟨hp, rfl, rfl⟩) r
    · exact .inl rfl
    · exact .inr ⟨hp, rfl, rfl⟩
  advance := by
    rintro s u (rfl | ⟨hp, rfl, rfl⟩) a
    · exact .inl rfl
    · exact .inr ⟨by rwa [advance_pos], advance_start s a, by rw [advance_retime, advance_lastValid]⟩
  retire := by
    rintro s u (rfl | ⟨hp, rfl, rfl⟩) i v -
    · exact .inl rfl
    · exact .inr ⟨by rwa [retire_pos], retire_start s i, by rw [retire_retime, retire_lastValid]⟩
  exec := fun h _ hs => sameButIdleStart_exec h hs

/-- Settles O8: the next byte overwrites `start`, and until then no step reads or writes it. -/
theorem startUnobservableWhenIdle : Obligations.StartUnobservableWhenIdle := by
  refine ⟨fun s b t x hready hidle => exec_processByte_idle b t x hready hidle, fun s t x k hidle hs => ?_⟩
  obtain ⟨u, hu, h⟩ :=
    (sameButIdleStart_simulation s.start x).runs (u := { s with start := x }) (.inr ⟨hidle, rfl, rfl⟩) hs
  exact ⟨u, hu, h⟩

/-! The registers power-on leaves open. -/

/-- The state with other values in the registers power-on leaves open (R150). -/
def State.withOpen (s : State) (p : Fin (Config.frameSizeMax + 1)) (c : Vector U16 Config.nChannels) (l : U32) : State :=
  { s with pos := p, ch := c, lastValid := l }

theorem agent_withOpen (s : State) (p : Fin (Config.frameSizeMax + 1)) (c : Vector U16 Config.nChannels) (l : U32)
    (a : Agent) : (s.withOpen p c l).agent a = s.agent a := by
  cases a <;> rfl

/-- Before INIT has completed, and with nothing pending, the states differ in `pos`, `ch` and `lastValid` at most. -/
def SameBeforeInit (s u : State) : Prop :=
  s.initDone = false ∧ s.pending = noWrites ∧ s.atDispatch = none ∧ ∃ p c l, u = s.withOpen p c l

/-- Before INIT has completed every meaning but INIT's reads none of these registers, and INIT sets two of them (R80, R81). -/
theorem sameBeforeInit_exec {i : Instr} {s u t : State} (h : SameBeforeInit s u) (hs : exec i s = .next t) :
    ∃ t', exec i u = .next t' ∧ (SameBeforeInit t t' ∨ SameButLastValid t t') := by
  obtain ⟨hd, hp, hdisp, p, c, l, rfl⟩ := h
  cases i with
  | init =>
    obtain rfl := Host.Outcome.next.inj ((exec_init_noWrites s hp).symm.trans hs)
    exact ⟨_, exec_init_noWrites (s.withOpen p c l) hp, .inr ⟨l, rfl⟩⟩
  | processByte b y =>
    cases hi : s.issuer with
    | consumer =>
      obtain rfl := Host.Outcome.next.inj ((exec_processByte_consumer b y s hi).symm.trans hs)
      exact ⟨_, exec_processByte_consumer b y (s.withOpen p c l) hi, .inl ⟨hd, hp, hdisp, p, c, l, rfl⟩⟩
    | byteSource =>
      obtain rfl := Host.Outcome.next.inj ((exec_processByte_unready b y s hi hd).symm.trans hs)
      exact ⟨_, exec_processByte_unready b y (s.withOpen p c l) hi hd, .inl ⟨hd, hp, hdisp, p, c, l, rfl⟩⟩
  | getChannel z =>
    obtain rfl := Host.Outcome.next.inj ((exec_getChannel_unready z s hd).symm.trans hs)
    exact ⟨_, exec_getChannel_unready z (s.withOpen p c l) hd, .inl ⟨hd, hp, hdisp, p, c, l, rfl⟩⟩
  | isConnected =>
    obtain rfl := Host.Outcome.next.inj ((exec_isConnected_unready s hd).symm.trans hs)
    exact ⟨_, exec_isConnected_unready (s.withOpen p c l) hd, .inl ⟨hd, hp, hdisp, p, c, l, rfl⟩⟩
  | frameRcChannelsPackedFc len =>
    obtain rfl := Host.Outcome.next.inj (((rcChannelsRowDecodes s len).2 hdisp).symm.trans hs)
    exact ⟨_, (rcChannelsRowDecodes (s.withOpen p c l) len).2 hdisp, .inl ⟨hd, hp, hdisp, p, c, l, rfl⟩⟩
  | frameLinkStatistics a len =>
    obtain rfl := Host.Outcome.next.inj hs
    exact ⟨_, rfl, .inl ⟨hd, hp, rfl, p, c, l, rfl⟩⟩
  | frameOther a len y =>
    obtain rfl := Host.Outcome.next.inj hs
    exact ⟨_, rfl, .inl ⟨hd, hp, rfl, p, c, l, rfl⟩⟩

/-- What two power-ons' runs keep: they differ in the open registers until INIT completes, and in `lastValid` after. -/
def SameFromPowerOn (s u : State) : Prop := SameBeforeInit s u ∨ SameButLastValid s u

theorem sameFromPowerOn_simulation : Simulation SameFromPowerOn where
  turn := by
    rintro s u (⟨-, -, -, p, c, l, rfl⟩ | h)
    · rfl
    · exact sameButLastValid_simulation.turn h
  fetch := by
    rintro s u (⟨-, -, -, p, c, l, rfl⟩ | h) a
    · rw [State.fetch, agent_withOpen, State.fetch]
    · exact sameButLastValid_simulation.fetch h a
  atDispatch := by
    rintro s u (⟨-, -, -, p, c, l, rfl⟩ | h)
    · rfl
    · exact sameButLastValid_simulation.atDispatch h
  frameHeader := by
    rintro s u (⟨-, -, -, p, c, l, rfl⟩ | h)
    · rfl
    · exact sameButLastValid_simulation.frameHeader h
  pending := by
    rintro s u (⟨-, -, -, p, c, l, rfl⟩ | h)
    · rfl
    · exact sameButLastValid_simulation.pending h
  takeTurn := by
    rintro s u (⟨hd, hp, hdisp, p, c, l, rfl⟩ | h)
    · exact .inl ⟨hd, hp, hdisp, p, c, l, rfl⟩
    · exact .inr (sameButLastValid_simulation.takeTurn h)
  setIssuer := by
    rintro s u (⟨hd, hp, hdisp, p, c, l, rfl⟩ | h) a
    · exact .inl ⟨hd, hp, hdisp, p, c, l, rfl⟩
    · exact .inr (sameButLastValid_simulation.setIssuer h a)
  refuse := by
    rintro s u (⟨hd, hp, hdisp, p, c, l, rfl⟩ | h) r
    · exact .inl ⟨hd, hp, hdisp, p, c, l, rfl⟩
    · exact .inr (sameButLastValid_simulation.refuse h r)
  advance := by
    rintro s u (⟨hd, hp, hdisp, p, c, l, rfl⟩ | h) a
    · cases a <;> exact .inl ⟨hd, hp, hdisp, p, c, l, rfl⟩
    · exact .inr (sameButLastValid_simulation.advance h a)
  retire := by
    rintro s u (⟨-, hp, -, -⟩ | h) i v hv
    · simp [hp] at hv
    · exact .inr (sameButLastValid_simulation.retire h i v hv)
  exec := by
    rintro s u t (h | h) i hs
    · exact sameBeforeInit_exec h hs
    · obtain ⟨t', ht', htt'⟩ := sameButLastValid_exec h hs
      exact ⟨t', ht', .inr htt'⟩

/-- Two power-ons with the same buffer and policy differ in the open registers only (R150). -/
theorem sameFromPowerOn_load {p q : Config.PowerOn} (src con : List CmdWord) (schedule : List Turn)
    (hbuf : p.buffer = q.buffer) (hpol : p.zeroLenPolicy = q.zeroLenPolicy) :
    SameFromPowerOn ((State.powerOn p).load src con schedule) ((State.powerOn q).load src con schedule) := by
  refine .inl ⟨rfl, rfl, rfl, q.pos, q.ch, q.lastValid, ?_⟩
  simp only [State.powerOn, State.load, State.withOpen, hbuf, hpol]

/-- Settles O6: the two runs stay related, and every field the statement compares is one the relation keeps equal. -/
theorem unspecifiedPowerOnUnobservable : Obligations.UnspecifiedPowerOnUnobservable := by
  intro p q src con schedule k t hbuf hpol hs
  obtain ⟨u, hu, h⟩ := sameFromPowerOn_simulation.runs (sameFromPowerOn_load src con schedule hbuf hpol) hs
  refine ⟨u, hu, ?_⟩
  rcases h with ⟨hd, -, -, _, _, _, rfl⟩ | ⟨l, rfl⟩
  · exact ⟨rfl, rfl, rfl, rfl, rfl, fun hdone => absurd (hd.symm.trans hdone) (by decide)⟩
  · exact ⟨rfl, rfl, rfl, rfl, rfl, fun _ => rfl⟩

end Sys2Proof.Machine
end
